-- ==== Sys2Proof/Word.lean ====
section
/-!
DEFINITION. The plain words the model is written with: bytes, 32-bit words, the index types of the grid,
and the shape of a sparse table. No operation of the device is here.
-/
namespace Sys2Proof

/-- One byte. -/
abbrev Byte := BitVec 8

/-- One 32-bit word: a general register, a device register (R7), one FP32 value. -/
abbrev Word := BitVec 32

/-- A run of bytes, the byte at the lowest address first (R3). -/
abbrev Bytes := List Byte

/-- A sparse table by number. An unlisted key holds the table's default, which each use names. -/
abbrev Tbl (α : Type) := List (Nat × α)

/-- A memory is a table of bytes; an unlisted address reads as 0. -/
abbrev Mem := List (Nat × BitVec 8)

/-- A tile id, row × 48 + col (R5). -/
abbrev TileId := Fin 2304

/-- A general register g0–g31 (R239). -/
abbrev GReg := Fin 32

/-- A vector register v0–v63 (R36). -/
abbrev VReg := Fin 64

/-- A predicate register p0–p7 (R238). -/
abbrev PReg := Fin 8

/-- A queue Q0–Q7 of a tile (R147). -/
abbrev QNo := Fin 8

/-- A tag 0–63 (R148). -/
abbrev TagNo := Fin 64

/-- A PCIe function, 0 = PF0 and 1–8 = VF1–VF8 (R344). -/
abbrev FnNo := Fin 9

/-- A program slot 0–15 (R141). -/
abbrev SlotNo := Fin 16

/-- A Baette port BL0–BL11 (R293). -/
abbrev PortNo := Fin 12

/-- A node of the stretch graph, 0–15 the polders and 16–19 the levee grid sides (R213). -/
abbrev NodeNo := Fin 20

end Sys2Proof
end

