-- ==== Sys2Proof/Machine/Bits.lean ====
section
/-!
DEFINITION. Bytes, bit fields, little-endian values (R3) and the checks the spec computes over bytes: CRC-32C
(R404), CRC-4 of a Felt word (R98) and CRC-16 of a training frame (R297).
-/
namespace Sys2Proof.Machine

/-- Bits [hi:lo] of a number. -/
def fld (v hi lo : Nat) : Nat := (v >>> lo) % 2 ^ (hi + 1 - lo)

/-- Bit k of a number. -/
def bitN (v k : Nat) : Bool := v.testBit k

/-- Bits [hi:lo] of a word. -/
def wfld (w : Word) (hi lo : Nat) : Nat := fld w.toNat hi lo

/-- The word with bits [hi:lo] replaced. -/
def wput (w : Word) (hi lo v : Nat) : Word :=
  let m : Nat := (2 ^ (hi + 1 - lo) - 1) <<< lo
  (w &&& ~~~(BitVec.ofNat 32 m)) ||| BitVec.ofNat 32 ((v % 2 ^ (hi + 1 - lo)) <<< lo)

/-- 1 for true. -/
def b2n (b : Bool) : Nat := if b then 1 else 0

/-- Little-endian value of bytes (R3). -/
def leNat : Bytes → Nat
  | [] => 0
  | b :: r => b.toNat + 256 * leNat r

/-- n bytes of a number, little-endian (R3). -/
def leBytes (v : Nat) : Nat → Bytes
  | 0 => []
  | n + 1 => BitVec.ofNat 8 v :: leBytes (v / 256) n

/-- The 32-bit word in the first four of the bytes. -/
def leWord (b : Bytes) : Word := BitVec.ofNat 32 (leNat (b.take 4))

/-- n bytes at offset o of a record. -/
def sub (b : Bytes) (o n : Nat) : Bytes := (b.drop o).take n

/-- Little-endian field of n bytes at offset o of a record. -/
def leAt (b : Bytes) (o n : Nat) : Nat := leNat (sub b o n)

/-- Bytes cut or filled with zeros to a length. -/
def padTo (b : Bytes) (n : Nat) : Bytes := (b ++ List.replicate n 0).take n

/-- Words of a run of bytes, four bytes each, little-endian. -/
def toWords : Bytes → List Word
  | a :: b :: c :: d :: r => leWord [a, b, c, d] :: toWords r
  | _ => []

/-- Bytes of words, little-endian. -/
def fromWords : List Word → Bytes
  | [] => []
  | w :: r => leBytes w.toNat 4 ++ fromWords r

/-- Two's-complement value of n bits. -/
def sgn (v n : Nat) : Int := if v % 2 ^ n < 2 ^ (n - 1) then (v % 2 ^ n : Nat) else (v % 2 ^ n : Nat) - (2 ^ n : Nat)

/-- The number of bits set. -/
def popcount (v : Nat) : Nat → Nat
  | 0 => 0
  | n + 1 => b2n (v.testBit n) + popcount v n

/-- The list of lo, lo+1, …, lo+n−1. -/
def rangeFrom (lo : Nat) : Nat → List Nat
  | 0 => []
  | n + 1 => lo :: rangeFrom (lo + 1) n

/-- One bit of a reflected CRC-32C. -/
def crc32cBit (c : Word) : Word := if c.getLsbD 0 then (c >>> 1) ^^^ 0x82F63B78#32 else c >>> 1

/-- One byte of a reflected CRC-32C. -/
def crc32cByte (c : Word) (b : Byte) : Word :=
  let x := c ^^^ b.setWidth 32
  crc32cBit (crc32cBit (crc32cBit (crc32cBit (crc32cBit (crc32cBit (crc32cBit (crc32cBit x)))))))

/-- The register of a CRC-32C after bytes. -/
def crc32cRun : Word → Bytes → Word
  | c, [] => c
  | c, b :: r => crc32cRun (crc32cByte c b) r

/-- CRC-32C of bytes (R404). -/
def crc32c (b : Bytes) : Word := ~~~(crc32cRun 0xFFFFFFFF#32 b)

/-- CRC-16, polynomial 0x1021, most significant bit first, no reflection (R185, R297), from a register. -/
def crc16Bit (c : Nat) : Nat := if c.testBit 15 then ((2 * c) % 65536) ^^^ 0x1021 else (2 * c) % 65536
def crc16Run : Nat → Bytes → Nat
  | c, [] => c
  | c, b :: r =>
    let x := c ^^^ (b.toNat * 256)
    crc16Run (crc16Bit (crc16Bit (crc16Bit (crc16Bit (crc16Bit (crc16Bit (crc16Bit (crc16Bit x)))))))) r
def crc16 (b : Bytes) : Nat := crc16Run 0xFFFF b

/-- |a − b|. -/
def dist (a b : Nat) : Nat := (a - b) + (b - a)

end Sys2Proof.Machine
end

