-- ==== Sys2Proof/Syntax.lean ====
section
/-!
DEFINITION. The commands of the block: one constructor of Instr for each row of the opcode table, with the
operands the rule of its row names, and the types of those operands.
-/
namespace Sys2Proof

/-- Where a slot operation issues: its tile, and the predicate fields common to every slot (R235). -/
structure Site where
  /-- the tile whose control core issues the operation -/
  tile : TileId
  /-- PNEG: the operation executes when the predicate is 0 -/
  neg : Bool
  /-- PRED: predicate register p0–p7 -/
  pred : PReg
  deriving DecidableEq, Repr

/-- CMP of pcmp (R241). -/
inductive Cmp where
  | eq | ne | lt | ltu | ge | geu
  deriving DecidableEq, Repr

/-- FN of plog (R241). -/
inductive PFn where
  | and | or | xor | andNot
  deriving DecidableEq, Repr

/-- STATE of ts.bank (R241). -/
inductive BankTarget where
  | on | ret | off
  deriving DecidableEq, Repr

/-- The units that hardware clock-gates after 16 idle cycles (R44). -/
inductive GatedUnit where
  | array (a : Fin 2)
  | vector
  deriving DecidableEq, Repr

/-- What the code of a hop finds in a word or flit that arrives: no error, one bit corrected, or two bits, which stay wrong as
received: a and b by their number in the word or in the flit's data and CHK (R81, R175). -/
inductive HopErr where
  | clean
  | corrected
  | uncorrectable (a b : Nat)
  deriving DecidableEq, Repr

/-- MOD of vcmp (R285). -/
inductive VCmp where
  | eq | ne | lt | le | unordered
  deriving DecidableEq, Repr

/-- MOD of vtr (R285). -/
inductive TrFn where
  | exp | exp2 | log | log2 | recip | rsqrt | tanh | sigmoid | erf
  deriving DecidableEq, Repr

/-- MOD of vred (R285). -/
inductive RedFn where
  | sum | max | min | maxNum | minNum | maxAbs
  deriving DecidableEq, Repr

/-- The format codes 0x0–0x9 that vcvt names (R286); 0xA and 0xB–0xF are reserved there. -/
inductive CvtFmt where
  | e4m3 | e5m2 | mxE4m3 | mxE5m2 | mxE3m2 | mxE2m3 | mxE2m1 | mxInt8 | bf16 | fp16
  deriving DecidableEq, Repr

/-- RM of a vector conversion (R286). -/
inductive RMode where
  | rne | zero | up | down | stochastic
  deriving DecidableEq, Repr

/-- SZ of vld and vst: 128, 64 or 32 bytes (R285). -/
inductive VSize where
  | b128 | b64 | b32
  deriving DecidableEq, Repr

/-- The ports of a router (R41): the local port and the four mesh ports. -/
inductive MPort where
  | loc | north | east | south | west
  deriving DecidableEq, Repr

/-- A word that comes in on a lane of the Felt, and what the code of its hop finds (R81). -/
structure FeltIn where
  lane : Fin 4
  err : HopErr
  deriving DecidableEq, Repr

/-- A router of the mesh and one of its input ports, and what the code of the hop finds in the flit that comes in there (R175). -/
structure MeshIn where
  tile : TileId
  inp : MPort
  err : HopErr
  deriving DecidableEq, Repr

/-- The channel of a flit that comes in, VC3 or VC2, and what the code of its hop finds (R175). -/
structure Vc2In where
  vc3 : Bool
  err : HopErr
  deriving DecidableEq, Repr

/-- A sheet of one of the descriptors that a queue holds under a tag: which of those descriptors, and which sheet (R152, R154). -/
structure SheetNo where
  desc : Fin 8
  sheet : Fin 768
  deriving DecidableEq, Repr

/-- One flit of a Baette link as it is received (R301): header, payload, sheet check, flit check. -/
structure LinkFlit where
  hdr : BitVec 192
  payload : List Byte
  schk : Word
  fcrc : Word
  deriving DecidableEq, Repr

/-- Errors of the line under a flit (R300): how many symbols arrived wrong in the codeword that begins in the flit. A flit
in which no codeword begins lies in the one before. -/
structure Fec where
  errs : Nat
  deriving DecidableEq, Repr

/-- No symbol arrived wrong. -/
def Fec.clean : Fec := ⟨0⟩
/-- As many symbols arrived wrong as the decoder corrects. -/
def Fec.fixed : Fec := ⟨15⟩
/-- One symbol more than the decoder corrects arrived wrong. -/
def Fec.lost : Fec := ⟨16⟩

/-- A submission entry taken from a queue of a function (R353). -/
structure HostCmd where
  fn : FnNo
  q : Fin 16
  op : Byte
  flags : Byte
  cid : BitVec 16
  slot : Byte
  /-- bytes 5–7 -/
  rsv : BitVec 24
  haddr : BitVec 64
  len : BitVec 64
  va : BitVec 64
  /-- bytes 32–127 of the entry -/
  arg : List Byte
  deriving DecidableEq, Repr

/-- What start-up finds in the units it trains and tests (R372, R374). -/
inductive BootOutcome where
  /-- every unit passes; ms is the measured time to READY -/
  | ok (ms : Word)
  /-- BS_FAILKIND 1: HBM stack unit fails training -/
  | hbmStack (unit : BitVec 12)
  /-- BS_FAILKIND 2: tile or array unit fails beyond its spares -/
  | tileBeyondSpares (unit : BitVec 12)
  /-- BS_FAILKIND 3: a sluice or crossing queue cannot be set -/
  | sluice (unit : BitVec 12)
  /-- BS_FAILKIND 4: a fuse word cannot be read -/
  | fuseRead (unit : BitVec 12)
  deriving DecidableEq, Repr, Inhabited

/-- What the governor measures at a tick (R388, R400). -/
structure PowerSample where
  /-- mean input power over the tick, in W -/
  watts : BitVec 16
  /-- input voltage in 0.1 V -/
  deciVolts : BitVec 16
  /-- a rail is at its limit now (R390) -/
  atLimit : Bool
  /-- rail voltages in mV, rails 0 on -/
  railMv : List (BitVec 16)
  /-- rail currents in A, rails 0 on -/
  railA : List (BitVec 16)
  deriving DecidableEq, Repr

/-- A register address: the BAR of PF0 (0) or of VF1–VF8, and the byte offset in it (R345). -/
structure RegAddr where
  bar : FnNo
  off : BitVec 24
  deriving DecidableEq, Repr

/-- The width of a register read: a byte, a half word, the word, or a 64-bit request (R7, R8). -/
inductive ReadWidth where
  | byte (k : Fin 4)
  | half (k : Fin 2)
  | word
  | quad
  deriving DecidableEq, Repr

/-- The width of a register write: narrower than 32 bits, 32 bits, or a 64-bit request (R7, R8). -/
inductive WriteWidth where
  | narrow | word | quad
  deriving DecidableEq, Repr

/-- The transports of SPDM (R434). -/
inductive Transport where
  | doe | mctp
  deriving DecidableEq, Repr

/-- An exchange of an SPDM connection: the code of the request, its operands and the contents of its answer without a signature
(R434, R435). -/
structure SpdmExch where
  code : Nat
  req : List Byte
  resp : List Byte
  deriving DecidableEq, Repr

/-- A memory that the test port reaches while the debug lock is open (R439; log entry 182). -/
inductive TestMem where
  | tileStore | reservoir | hbm
  deriving DecidableEq, Repr

/-- An access through the test port (R439). -/
inductive TestAccess where
  /-- a scan chain -/
  | scan
  | read (m : TestMem) (addr : Nat) (n : Nat)
  | write (m : TestMem) (addr : Nat) (data : List Byte)
  deriving DecidableEq, Repr

/-- An access through the test port, and whether none was logged in the last second (R439). -/
structure TestPort where
  first : Bool
  access : TestAccess
  deriving DecidableEq, Repr

/-- An MCTP message of the management bus (R465). -/
inductive MctpMsg where
  /-- control message: the bus owner assigns the endpoint ID -/
  | setEid (eid : Byte)
  /-- any other control message, by its command code -/
  | control (code : Byte)
  /-- a message of a type the endpoint does not accept -/
  | otherType (ty : Byte)
  /-- PLDM base: GetPLDMTypes, SetTID, and another command by its code -/
  | pldmTypes
  | pldmSetTid (tid : Byte)
  | pldmBase (code : Byte)
  /-- a message with a packet whose PEC is wrong -/
  | badPec
  deriving DecidableEq, Repr

/-- The commands of the block: the rows of the opcode table, in its order. -/
inductive Instr where
  /-- BUNDLE_ISSUE. The tile's control core issues the next bundle of its instruction memory (R236). -/
  | bundleIssue (t : TileId)
  /-- BR. Taken branch to a bundle (R244). -/
  | br (u : Site) (target : Fin 1024)
  /-- LOOP_I. Loop k with an immediate pass count (R245). -/
  | loopI (u : Site) (k : Fin 4) (endA : Fin 1024) (count : Fin 1024)
  /-- LOOP_R. Loop k with the pass count in a register (R245). -/
  | loopR (u : Site) (k : Fin 4) (endA : Fin 1024) (ra : GReg)
  /-- DELAY. The next bundle issues n cycles later; n = 0 is a reserved encoding (R247). -/
  | delay (u : Site) (n : BitVec 16)
  /-- DELAY_EXPIRY. The cycles of a delay have elapsed (R247). -/
  | delayExpiry (t : TileId)
  /-- WAIT_Q. Wait for a tag; status to rd (R156). -/
  | waitQ (u : Site) (rd : GReg) (tag : TagNo)
  /-- WAIT_QALL. Wait for all 64 tags (R243). -/
  | waitQall (u : Site)
  /-- WAIT_CYC. Wait for span cycle g[ra]; C - t to rd (R250). -/
  | waitCyc (u : Site) (rd ra : GReg)
  /-- WAIT_COMPLETE. The condition of the tile's pending wait comes to hold (R249). -/
  | waitComplete (t : TileId)
  /-- TIDE. The tile arrives at the tide and names the next span record; it carries no predicate (R238, R251). -/
  | tide (t : TileId) (span : Fin 4096)
  /-- END. The tile's program ends; it carries no predicate (R238, R252). -/
  | endProg (t : TileId)
  /-- ADD. Scalar add (R241). -/
  | add (u : Site) (rd ra rb : GReg)
  /-- SUB. Scalar sub (R241). -/
  | sub (u : Site) (rd ra rb : GReg)
  /-- AND. Scalar and (R241). -/
  | andR (u : Site) (rd ra rb : GReg)
  /-- OR. Scalar or (R241). -/
  | orR (u : Site) (rd ra rb : GReg)
  /-- XOR. Scalar xor (R241). -/
  | xorR (u : Site) (rd ra rb : GReg)
  /-- SLL. Scalar sll (R241). -/
  | sll (u : Site) (rd ra rb : GReg)
  /-- SRL. Scalar srl (R241). -/
  | srl (u : Site) (rd ra rb : GReg)
  /-- SRA. Scalar sra (R241). -/
  | sra (u : Site) (rd ra rb : GReg)
  /-- SLT. Scalar slt (R241). -/
  | slt (u : Site) (rd ra rb : GReg)
  /-- SLTU. Scalar sltu (R241). -/
  | sltu (u : Site) (rd ra rb : GReg)
  /-- MUL. Scalar mul (R241). -/
  | mul (u : Site) (rd ra rb : GReg)
  /-- MIN. Scalar min (R241). -/
  | minS (u : Site) (rd ra rb : GReg)
  /-- MAX. Scalar max (R241). -/
  | maxS (u : Site) (rd ra rb : GReg)
  /-- ADDI. Scalar addi with a sign-extended 12-bit immediate (R241). -/
  | addi (u : Site) (rd ra : GReg) (imm : BitVec 12)
  /-- ANDI. Scalar andi with a sign-extended 12-bit immediate (R241). -/
  | andi (u : Site) (rd ra : GReg) (imm : BitVec 12)
  /-- ORI. Scalar ori with a sign-extended 12-bit immediate (R241). -/
  | ori (u : Site) (rd ra : GReg) (imm : BitVec 12)
  /-- XORI. Scalar xori with a sign-extended 12-bit immediate (R241). -/
  | xori (u : Site) (rd ra : GReg) (imm : BitVec 12)
  /-- SLLI. Scalar slli by an immediate (R241). -/
  | slli (u : Site) (rd ra : GReg) (sh : BitVec 5)
  /-- SRLI. Scalar srli by an immediate (R241). -/
  | srli (u : Site) (rd ra : GReg) (sh : BitVec 5)
  /-- SRAI. Scalar srai by an immediate (R241). -/
  | srai (u : Site) (rd ra : GReg) (sh : BitVec 5)
  /-- SLTI. Signed set-less-than against an immediate (R241). -/
  | slti (u : Site) (rd ra : GReg) (imm : BitVec 12)
  /-- LDI. Load a sign-extended 17-bit immediate (R241). -/
  | ldi (u : Site) (rd : GReg) (imm : BitVec 17)
  /-- LDIH. Place the immediate in bits [31:15] (R241). -/
  | ldih (u : Site) (rd : GReg) (imm : BitVec 17)
  /-- LD_W. Scalar load of one tile-store word (R242). -/
  | ldW (u : Site) (rd ra : GReg) (imm : BitVec 12)
  /-- ST_W. Scalar store of g[rd] at g[ra] + imm (R242). -/
  | stW (u : Site) (rd ra : GReg) (imm : BitVec 12)
  /-- PCMP. Predicate from a comparison (R241). -/
  | pcmp (u : Site) (pd : PReg) (ra rb : GReg) (c : Cmp)
  /-- PLOG. Predicate from two predicates (R241). -/
  | plog (u : Site) (pd pa pb : PReg) (f : PFn)
  /-- PSET. Predicate from a constant (R241). -/
  | pset (u : Site) (pd : PReg) (v : Bool)
  /-- FLAGS_RD. Read the sticky flag word (R242). -/
  | flagsRd (u : Site) (rd : GReg)
  /-- TID_RD. Read the tile id (R241). -/
  | tidRd (u : Site) (rd : GReg)
  /-- SPAN_RD. Read the span number (R241). -/
  | spanRd (u : Site) (rd : GReg)
  /-- LC_RD. Read the remaining passes of loop k (R241). -/
  | lcRd (u : Site) (rd : GReg) (k : Fin 4)
  /-- TS_BANK. Power change of the banks in the mask g[ra] (R127). -/
  | tsBank (u : Site) (target : BankTarget) (ra : GReg) (tag : TagNo)
  /-- BANK_GATE_ENTRY. A closed bank's write-acceptance count is 0 and its entry begins (R129). -/
  | bankGateEntry (t : TileId) (bank : Fin 32)
  /-- TS_BANK_COMPLETE. Every bank named under the tag has reached its target (R127). -/
  | tsBankComplete (t : TileId) (tag : TagNo)
  /-- MM_STREAM. Stream into a set of an array (R274). -/
  | mmStream (u : Site) (arr : Fin 2) (rl rls rr rrs : GReg) (set : Fin 2) (cont : Bool)
  /-- STREAM_COMPLETE. The last block of a stream is rounded and the set is ready (R274). -/
  | streamComplete (t : TileId) (arr : Fin 2)
  /-- MM_CFG. Load the array configuration word (R272). -/
  | mmCfg (u : Site) (arr : Fin 2) (ra : GReg)
  /-- MM_PWR. Power switch of an array (R276). -/
  | mmPwr (u : Site) (arr : Fin 2) (off : Bool)
  /-- ARRAY_POWER_EXIT_DONE. The 256-cycle exit of an array's power switch ends (R44). -/
  | arrayPowerExitDone (t : TileId) (arr : Fin 2)
  /-- ARRAY_CLOCK_GATE. Hardware clock-gates an array or the vector unit (R44). -/
  | arrayClockGate (t : TileId) (unit : GatedUnit)
  /-- FELT_INJECT. Inject words on the selected lanes (R278); lmask 0 is a reserved encoding (R277). -/
  | feltInject (u : Site) (lmask : BitVec 4) (revs : BitVec 4) (ra rs : GReg) (sc sw : Bool)
  /-- FELT_REMOVE. Take the words at the tile off the selected lanes (R279). -/
  | feltRemove (u : Site) (lmask : BitVec 4) (wr : Bool) (ra : GReg)
  /-- FELT_COPY. Copy the words at the tile to the tile store (R279). -/
  | feltCopy (u : Site) (lmask : BitVec 4) (ra : GReg)
  /-- FELT_WORD_ARRIVAL. The slot of a lane that is at the tile in this cycle passes its router (R89). -/
  | feltWordArrival (t : TileId) (lane : FeltIn)
  /-- FELT_AUTO_REMOVE. A word returns to its head after its revolutions and is removed (R90). -/
  | feltAutoRemove (t : TileId) (lane : Fin 4)
  /-- COUCH_DRAIN. Drain a set through an epilogue entry (R284). -/
  | couchDrain (u : Site) (arr set : Fin 2) (epi : Fin 16) (re rs ru : GReg)
  /-- COUCH_SET. Load an epilogue entry from a descriptor (R280). -/
  | couchSet (u : Site) (epi : Fin 16) (ra : GReg)
  /-- VADD. Vector vadd; pk selects 64 packed BF16 values (R285). -/
  | vadd (u : Site) (vd va vb : VReg) (pk : Bool)
  /-- VSUB. Vector vsub; pk selects 64 packed BF16 values (R285). -/
  | vsub (u : Site) (vd va vb : VReg) (pk : Bool)
  /-- VMUL. Vector vmul; pk selects 64 packed BF16 values (R285). -/
  | vmul (u : Site) (vd va vb : VReg) (pk : Bool)
  /-- VFMA. Vector vfma; pk selects 64 packed BF16 values (R285). -/
  | vfma (u : Site) (vd va vb : VReg) (pk : Bool)
  /-- VFNMA. Vector vfnma; pk selects 64 packed BF16 values (R285). -/
  | vfnma (u : Site) (vd va vb : VReg) (pk : Bool)
  /-- VMIN. Vector vmin; pk selects 64 packed BF16 values (R285). -/
  | vmin (u : Site) (vd va vb : VReg) (pk : Bool)
  /-- VMAX. Vector vmax; pk selects 64 packed BF16 values (R285). -/
  | vmax (u : Site) (vd va vb : VReg) (pk : Bool)
  /-- VMINN. Vector vminn; pk selects 64 packed BF16 values (R285). -/
  | vminn (u : Site) (vd va vb : VReg) (pk : Bool)
  /-- VMAXN. Vector vmaxn; pk selects 64 packed BF16 values (R285). -/
  | vmaxn (u : Site) (vd va vb : VReg) (pk : Bool)
  /-- VABS. Clear bit 31 of each lane (R285). -/
  | vabs (u : Site) (vd va : VReg)
  /-- VNEG. Invert bit 31 of each lane (R285). -/
  | vneg (u : Site) (vd va : VReg)
  /-- VCMP. Per-lane comparison mask (R285). -/
  | vcmp (u : Site) (vd va vb : VReg) (c : VCmp)
  /-- VSEL. Per-lane selection (R285). -/
  | vsel (u : Site) (vd va vb : VReg)
  /-- VDIV. Vector divide (R65). -/
  | vdiv (u : Site) (vd va vb : VReg)
  /-- VSQRT. Vector square root (R65). -/
  | vsqrt (u : Site) (vd va : VReg)
  /-- VTR. Vector transcendental (R70). -/
  | vtr (u : Site) (vd va : VReg) (f : TrFn)
  /-- VRED. Reduction across the lanes (R58). -/
  | vred (u : Site) (vd va : VReg) (f : RedFn)
  /-- VCVT. Vector conversion; with wid, rm must be RNE (R286). -/
  | vcvt (u : Site) (vd va : VReg) (fmt : CvtFmt) (wid : Bool) (rm : RMode)
  /-- VCVTI. Conversion between FP32 and int32 (R69). -/
  | vcvti (u : Site) (vd va : VReg) (wid : Bool) (rm : RMode)
  /-- VIADD. Vector integer add (R285). -/
  | viadd (u : Site) (vd va vb : VReg)
  /-- VISUB. Vector integer sub (R285). -/
  | visub (u : Site) (vd va vb : VReg)
  /-- VIAND. Vector integer and (R285). -/
  | viand (u : Site) (vd va vb : VReg)
  /-- VIOR. Vector integer or (R285). -/
  | vior (u : Site) (vd va vb : VReg)
  /-- VIXOR. Vector integer xor (R285). -/
  | vixor (u : Site) (vd va vb : VReg)
  /-- VISLL. Vector integer sll (R285). -/
  | visll (u : Site) (vd va vb : VReg)
  /-- VISRL. Vector integer srl (R285). -/
  | visrl (u : Site) (vd va vb : VReg)
  /-- VLD. Vector load (R285). -/
  | vld (u : Site) (vd : VReg) (ra : GReg) (sz : VSize)
  /-- VST. Vector store (R285). -/
  | vst (u : Site) (va : VReg) (ra : GReg) (sz : VSize)
  /-- VBC. Broadcast a general register (R285). -/
  | vbc (u : Site) (vd : VReg) (ra : GReg)
  /-- VIDX. Each lane its own index (R285). -/
  | vidx (u : Site) (vd : VReg)
  /-- VMVG. One lane to a general register (R285). -/
  | vmvg (u : Site) (rd : GReg) (va : VReg) (lane : Fin 32)
  /-- V_SR. Stochastic setting of the vector unit (R285). -/
  | vSr (u : Site) (rt rb rc : GReg)
  /-- V_FELT. A loose word from a vector register (R289). -/
  | vFelt (u : Site) (lane : Fin 4) (va : VReg) (rs : GReg) (scf : Bool)
  /-- V_LP. 128 bytes of a vector register to another tile (R289). -/
  | vLp (u : Site) (va : VReg) (ra rb : GReg)
  /-- MESH_SEND. Send len + 1 sheets over VC0 (R180). -/
  | meshSend (u : Site) (rt rs rd : GReg) (len : Fin 64)
  /-- RV_READ. Read len + 1 sheets from a reservoir (R133). -/
  | rvRead (u : Site) (lev : Fin 4) (ro ra : GReg) (len : Fin 64)
  /-- RV_WRITE. Write len + 1 sheets to a reservoir (R133). -/
  | rvWrite (u : Site) (lev : Fin 4) (ro ra : GReg) (len : Fin 64)
  /-- Q_PUSH. Push the descriptor at g[ra] into queue q (R149). -/
  | qPush (u : Site) (q : QNo) (ra : GReg)
  /-- PULP_START. Start a pulp phase from the descriptor at g[ra] (R193). -/
  | pulpStart (u : Site) (ra : GReg)
  /-- WV_PIN. Pin a weight version (R112). -/
  | wvPin (u : Site) (q : QNo) (re rv : GReg) (tag : TagNo)
  /-- WV_PIN_GRANT. A waiting pin completes (R112). -/
  | wvPinGrant (t : TileId) (q : QNo) (tag : TagNo)
  /-- WV_UNPIN. Unpin a weight version (R115). -/
  | wvUnpin (u : Site) (q : QNo) (re rv : GReg) (tag : TagNo)
  /-- WV_CLAIM. Claim a copy for writing (R114). -/
  | wvClaim (u : Site) (q : QNo) (re : GReg) (tag : TagNo)
  /-- WV_CLAIM_GRANT. A waiting claim completes (R114). -/
  | wvClaimGrant (t : TileId) (q : QNo) (tag : TagNo)
  /-- WV_PUBLISH. Publish the WRITING copy (R115). -/
  | wvPublish (u : Site) (q : QNo) (re : GReg) (tag : TagNo)
  /-- CHAIN_RUN. Start a chain (R253). -/
  | chainRun (u : Site) (chain : Fin 256)
  /-- CHAIN_STAGE_ISSUE. The control core issues the chain stages due in this cycle (R254). -/
  | chainStageIssue (t : TileId)
  /-- MESH_FLIT_ARRIVAL. The scheduled flits that arrive at the tile's router in this cycle are forwarded or delivered (R180). -/
  | meshFlitArrival (t : MeshIn)
  /-- VC2_FLIT_FORWARD. The head VC2 or VC3 flit of an input buffer leaves once the next buffer holds a credit (R182). -/
  | vc2FlitForward (t : TileId) (inp : MPort) (vc3 : Vc2In)
  /-- DEPOSIT_WRITE. The oldest deposit-buffer entry is written to the tile store (R39). -/
  | depositWrite (t : TileId)
  /-- RCTX_ADD. A reduction context adds its two head flits (R184). -/
  | rctxAdd (t : TileId) (ctx : Fin 8)
  /-- QUEUE_TRANSLATE. A page translation of the head untranslated descriptor completes (R151). -/
  | queueTranslate (t : TileId) (q : QNo)
  /-- QUEUE_SHEET_RETURN. Read data of one sheet returns (R152). -/
  | queueSheetReturn (t : TileId) (q : QNo) (tag : TagNo) (sheet : SheetNo)
  /-- HBM_SHEET_COMMIT. One write or accumulate-write sheet is committed (R152). -/
  | hbmSheetCommit (t : TileId) (q : QNo) (tag : TagNo) (sheet : SheetNo)
  /-- DEADLINE_EXPIRY. A descriptor of the queue is not complete at its deadline (R161). -/
  | deadlineExpiry (t : TileId) (q : QNo)
  /-- HELD_READ_RELEASE. A held queue read sheet is released (R332). -/
  | heldReadRelease (t : TileId) (q : QNo) (tag : TagNo) (sheet : SheetNo)
  /-- HBM_REFRESH_SWITCH. A stack changes its refresh rate (R160). -/
  | hbmRefreshSwitch (stack : Fin 12) (hot : Bool)
  /-- PREEMPT_SAVE_START. Every tile has stopped and the save begins (R167); stopUs is the measured stopping time. -/
  | preemptSaveStart (stopUs : BitVec 32)
  /-- PREEMPT_SAVE_DONE. The save completes (R167); saveUs is its measured duration. -/
  | preemptSaveDone (saveUs : BitVec 16)
  /-- RESTORE_DONE. A restore completes (R171). -/
  | restoreDone
  /-- PULP_ITEM_DONE. The engine finishes its item and takes its next (R196). -/
  | pulpItemDone (t : TileId)
  /-- PULP_STEAL_REQUEST. The engine serves the next steal request of its inbox (R198). -/
  | pulpStealRequest (t : TileId)
  /-- PULP_STEAL_REPLY. The engine receives a steal reply, or starts a search (R197). -/
  | pulpStealReply (t : TileId)
  /-- PULP_TABLE_REQUEST. The engine applies the next table request of its inbox (R203). -/
  | pulpTableRequest (t : TileId)
  /-- PULP_PHASE_COMPLETE. The tile's phase tag completes (R206). -/
  | pulpPhaseComplete (t : TileId)
  /-- DROOP_DETECT. A droop detector of the node sees the supply below its threshold (R219). -/
  | droopDetect (node : NodeNo)
  /-- FREEBOARD_CROSSING. A monitor reads a lower margin (R223). -/
  | freeboardCrossing (node : NodeNo) (mon : Fin 9) (margin : Byte)
  /-- FREEBOARD_RAISE. Every monitor has read FB_RAISE or above for 10 ms (R223). -/
  | freeboardRaise
  /-- PLL_LOCK_DONE. The idle array PLL locks (R225). -/
  | pllLockDone (lockUs : BitVec 32)
  /-- SPAN_BOUNDARY. The conditions of the boundary hold (R251). -/
  | spanBoundary
  /-- POWER_CAP_TICK. Cap decision with no program running (R387). -/
  | powerCapTick
  /-- THERMAL_TICK. Thermal update with no program running (R396). -/
  | thermalTick
  /-- STOP_TIMEOUT. No boundary within LT_TIMEOUT of the first stopping record (R410). -/
  | stopTimeout
  /-- LINK_DETECT_RETRY. A port in DETECT retries (R296). -/
  | linkDetectRetry (p : PortNo)
  /-- TRAINING_FRAME. A training frame is received on a physical lane (R297); good: the receiver meets its error ratio there. -/
  | trainingFrame (p : PortNo) (lane : Fin 8) (ctrl : BitVec 32) (inverted good : Bool)
  /-- LINK_TRAIN_TIMEOUT. A training state exceeds its limit (R296). -/
  | linkTrainTimeout (p : PortNo)
  /-- LINK_DOWN_IDLE_EXPIRY. The electrical idle of a DOWN port ends (R296). -/
  | linkDownIdleExpiry (p : PortNo)
  /-- LINK_LOSS_OF_SIGNAL. A lane in use loses its signal (R315). -/
  | linkLossOfSignal (p : PortNo) (lane : Fin 8)
  /-- LINK_NULL. A NULL flit is received on the port; fecBad: one of its codewords could not be corrected (R300). -/
  | linkNull (p : PortNo) (f : LinkFlit) (fec : Fec)
  /-- LINK_WRITE. A WRITE flit is received on the port; fecBad: one of its codewords could not be corrected (R300). -/
  | linkWrite (p : PortNo) (f : LinkFlit) (fec : Fec)
  /-- LINK_ACC_WRITE. A ACC-WRITE flit is received on the port; fecBad: one of its codewords could not be corrected (R300). -/
  | linkAccWrite (p : PortNo) (f : LinkFlit) (fec : Fec)
  /-- LINK_READ. A READ flit is received on the port; fecBad: one of its codewords could not be corrected (R300). -/
  | linkRead (p : PortNo) (f : LinkFlit) (fec : Fec)
  /-- LINK_READ_RESP. A READ-RESP flit is received on the port; fecBad: one of its codewords could not be corrected (R300). -/
  | linkReadResp (p : PortNo) (f : LinkFlit) (fec : Fec)
  /-- LINK_TIDE. A TIDE flit is received on the port; fecBad: one of its codewords could not be corrected (R300). -/
  | linkTide (p : PortNo) (f : LinkFlit) (fec : Fec)
  /-- LINK_DOORBELL. A DOORBELL flit is received on the port; fecBad: one of its codewords could not be corrected (R300). -/
  | linkDoorbell (p : PortNo) (f : LinkFlit) (fec : Fec)
  /-- LINK_MGMT_IDENT. A MGMT IDENT flit is received on the port; fecBad: one of its codewords could not be corrected (R300). -/
  | linkMgmtIdent (p : PortNo) (f : LinkFlit) (fec : Fec)
  /-- LINK_MGMT_FAILOVER. A MGMT FAILOVER flit is received on the port; fecBad: one of its codewords could not be corrected (R300). -/
  | linkMgmtFailover (p : PortNo) (f : LinkFlit) (fec : Fec)
  /-- LINK_RESERVED_FLIT. A reserved-type flit is received on the port; fecBad: one of its codewords could not be corrected (R300). -/
  | linkReservedFlit (p : PortNo) (f : LinkFlit) (fec : Fec)
  /-- LINK_REPLAY_TIMEOUT. ACK has not advanced for 2 µs (R305). -/
  | linkReplayTimeout (p : PortNo)
  /-- LINK_FLIT_SEND. The next waiting flit is sent (R306). -/
  | linkFlitSend (p : PortNo)
  /-- TIDE_UP_SEND. The module sends its summed UP, or the root decides (R313). -/
  | tideUpSend
  /-- TIDE_RECOUNT_EXPIRY. The LT_RECOUNT wait ends (R313). -/
  | tideRecountExpiry
  /-- TIDE_TIMEOUT. PASS does not arrive within LT_TIMEOUT (R314). -/
  | tideTimeout
  /-- REAM_SCATTER_SEND. The engine sends its next contribution sheet (R329). -/
  | reamScatterSend (slot : SlotNo) (ream : Fin 4096)
  /-- REAM_STAGED_ADD. The next contribution in rank order is added; waitUs is the measured time from the first contribution (R331). -/
  | reamStagedAdd (slot : SlotNo) (ream : Fin 4096) (slice : Fin 2048) (waitUs : BitVec 32)
  /-- REAM_GATHER_SEND. The engine sends its next gather sheet (R340). -/
  | reamGatherSend (slot : SlotNo) (ream : Fin 4096)
  /-- REAM_LATE. A slice is not summed after RT_LATE (R334). -/
  | reamLate (slot : SlotNo) (ream : Fin 4096) (slice : Fin 2048)
  /-- REAM_TIMEOUT. A slice is not summed after RT_TIMEOUT (R334). -/
  | reamTimeout (slot : SlotNo) (ream : Fin 4096) (slice : Fin 2048)
  /-- DOORBELL_SQ_TAIL. Host write of a submission tail (R352). -/
  | doorbellSqTail (fn : FnNo) (q : Fin 16) (v : Word)
  /-- DOORBELL_CQ_HEAD. Host write of a completion head (R352). -/
  | doorbellCqHead (fn : FnNo) (q : Fin 16) (v : Word)
  /-- QUEUE_ENABLE. Host write of HIF_Qq_CFG (R350). -/
  | queueEnable (fn : FnNo) (q : Fin 16) (v : Word)
  /-- SUBMISSION_FETCH. The device fetches a submission entry (R355). -/
  | submissionFetch (fn : FnNo) (q : Fin 16)
  /-- COMPLETION_WRITE. The oldest waiting completion or event of the queue is written (R354). -/
  | completionWrite (fn : FnNo) (q : Fin 16)
  /-- ADMIT. The ADMIT command of an accepted submission entry (R357). -/
  | admitCmd (c : HostCmd)
  /-- START. The START command of an accepted submission entry (R357). -/
  | start (c : HostCmd)
  /-- PREEMPT. The PREEMPT command of an accepted submission entry (R357). -/
  | preempt (c : HostCmd)
  /-- RESUME. The RESUME command of an accepted submission entry (R357). -/
  | resume (c : HostCmd)
  /-- RELEASE. The RELEASE command of an accepted submission entry (R357). -/
  | release (c : HostCmd)
  /-- COPY_IN. The COPY_IN command of an accepted submission entry (R357). -/
  | copyIn (c : HostCmd)
  /-- COPY_OUT. The COPY_OUT command of an accepted submission entry (R357). -/
  | copyOut (c : HostCmd)
  /-- COPY_OUT_DEFERRED. A waiting COPY_OUT proceeds (R361). -/
  | copyOutDeferred (c : HostCmd)
  /-- ABORT. The ABORT command of an accepted submission entry (R357). -/
  | abort (c : HostCmd)
  /-- QUOTA. The QUOTA command of an accepted submission entry (R357). -/
  | quota (c : HostCmd)
  /-- RESERVED_COMMAND. The RESERVED_COMMAND command of an accepted submission entry (R357). -/
  | reservedCommand (c : HostCmd)
  /-- BAR4_ACCESS. Host read of len bytes or write of data through the HBM aperture (R362). -/
  | bar4Access (write : Bool) (off : BitVec 36) (len : Nat) (data : List Byte)
  /-- FLR. Function-level reset (R363). -/
  | flr (fn : FnNo)
  /-- SURPRISE_REMOVAL. The PCIe link goes down without D3 (R364). -/
  | surpriseRemoval
  /-- PERST_RESET. Conventional or hot reset (R376). -/
  | perstReset
  /-- IDLE_ENTRY. 1 ms has passed with no program and no work (R393). -/
  | idleEntry
  /-- POWER_GOOD. Power good; o is what training and self-test find (R372). -/
  | powerGood (o : BootOutcome)
  /-- IDENTITY_KEY_READY. Identity key generation ends (R430). -/
  | identityKeyReady
  /-- COLD_RESET. The device restarts at stage 0 (R376). -/
  | coldReset (byPldm : Bool) (o : BootOutcome)
  /-- WARM_RESET. The device restarts at stage 1 (R376). -/
  | warmReset (byPldm : Bool) (o : BootOutcome)
  /-- FLASH_READ. BOOT_FL_CMD is written with the code of FLASH_READ (R380). -/
  | flashRead
  /-- FLASH_ERASE. BOOT_FL_CMD is written with the code of FLASH_ERASE (R380). -/
  | flashErase
  /-- FLASH_PROGRAM. BOOT_FL_CMD is written with the code of FLASH_PROGRAM (R380). -/
  | flashProgram
  /-- SET_PREF. BOOT_FL_CMD is written with the code of SET_PREF (R380). -/
  | setPref
  /-- CAL_READ. BOOT_FL_CMD is written with the code of CAL_READ (R380). -/
  | calRead
  /-- CAL_COMMIT. BOOT_FL_CMD is written with the code of CAL_COMMIT (R380). -/
  | calCommit
  /-- FLASH_CMD_DONE. The flash command ends; a deferred BR_CMD takes effect with outcome o (R377); devErr: the flash device reported an error. -/
  | flashCmdDone (devErr : Bool) (o : BootOutcome)
  /-- SVN_RAISE. A write of SEC_SVN_CMD (R428). -/
  | svnRaise (v : Word)
  /-- INPUT_LOCKOUT. The 48 V input leaves its range (R384). -/
  | inputLockout
  /-- RAIL_LIMIT. A power stage reaches VL_LIM (R386). -/
  | railLimit (rail : Fin 5)
  /-- RAIL_LIMIT_SHUTDOWN. Rail 3 or 4 stays at its limit for 1 ms (R386). -/
  | railLimitShutdown (rail : Fin 5)
  /-- GOVERNOR_TICK. The 100 µs tick of the level-load governor with the measured draw (R388). -/
  | governorTick (m : PowerSample)
  /-- THERMAL_TRIP. A sensor reaches its trip threshold (R397). -/
  | thermalTrip (sensor : Fin 64)
  /-- THERMAL_SHUTDOWN. A sensor reaches its shutdown threshold (R397). -/
  | thermalShutdown (sensor : Fin 64)
  /-- SENSOR_UPDATE. The sensor mirror is updated; raw lists the readings of sensors 0 on, in 1/64 °C (R399). -/
  | sensorUpdate (raw : List (BitVec 16))
  /-- SCRUB_DEFERRED. A background task passes its period (R418). -/
  | scrubDeferred (task : Fin 6)
  /-- LOG_TOKEN_TICK. An LR_PERIOD interval of a code ends (R447). -/
  | logTokenTick (code : BitVec 16)
  /-- LOG_CLEAR. A write of 0xC1 to LG_CLEAR (R452). -/
  | logClear
  /-- LOG_CLEARED. The clear finishes (R452). -/
  | logCleared
  /-- PAIR_LOW_READ. A read of the low word of a 64-bit pair (R8). -/
  | pairLowRead (a : RegAddr) (w : ReadWidth)
  /-- PAIR_HIGH_READ. A read of the high word of a 64-bit pair (R8). -/
  | pairHighRead (a : RegAddr) (w : ReadWidth)
  /-- XF_INFO_READ. A read of MEM_XF_INFO (R145). -/
  | xfInfoRead (w : ReadWidth)
  /-- SLIP_INFO_READ. A read of CLK_SLIP_INFO (R232). -/
  | slipInfoRead (w : ReadWidth)
  /-- FIRST_FATAL_READ. A read of ERR_FIRST_FATAL (R421). -/
  | firstFatalRead (w : ReadWidth)
  /-- SLUICE_MON_RESTART. A write of SM_RESTART (R232). -/
  | sluiceMonRestart
  /-- FB_MARGIN_RESTART. A write of 0xFF to FM_MIN (R232). -/
  | fbMarginRestart
  /-- PORT_RETRAIN. A write of PC_RETRAIN (R320). -/
  | portRetrain (p : PortNo)
  /-- REGISTER_WRITE. A host write to a register without a row of its own (R10). -/
  | registerWrite (a : RegAddr) (w : WriteWidth) (v : BitVec 64)
  /-- EN_RISE. EN rises (R461). -/
  | enRise
  /-- EN_FALL. EN falls (R460, R461). -/
  | enFall
  /-- CAPACITANCE_CHARGED. The input capacitance is charged (R460). -/
  | capacitanceCharged
  /-- TEST_PORT_ACCESS. An access to the test port (R439). -/
  | testPortAccess (port : TestPort)
  /-- PLDM_SENSOR_READ. A PLDM request reads a sensor (R466). -/
  | pldmSensorRead (id : Byte)
  /-- PLDM_CAP_EFFECTER. PLDM effecter 1 (R467). -/
  | pldmCapEffecter (w : BitVec 16)
  /-- PLDM_RESET_EFFECTER. PLDM effecter 2 (R467). -/
  | pldmResetEffecter (st : Byte) (o : BootOutcome)
  /-- PLDM_LEVEL_LOAD_EFFECTER. PLDM effecter 3 (R467). -/
  | pldmLevelLoadEffecter (st : Byte)
  /-- PLDM_FRU_READ. A PLDM request reads the FRU record (R469). -/
  | pldmFruRead
  /-- GET_VERSION. SPDM GET_VERSION (R434). -/
  | getVersion (tr : Transport)
  /-- GET_CAPABILITIES. SPDM GET_CAPABILITIES (R434). -/
  | getCapabilities (tr : Transport)
  /-- NEGOTIATE_ALGORITHMS. SPDM NEGOTIATE_ALGORITHMS with the offered extended algorithm structures, little-endian (R435). -/
  | negotiateAlgorithms (tr : Transport) (offers : List Word)
  /-- GET_DIGESTS. SPDM GET_DIGESTS (R434). -/
  | getDigests (tr : Transport)
  /-- GET_CERTIFICATE. SPDM GET_CERTIFICATE (R434). -/
  | getCertificate (tr : Transport) (slot : Byte) (off len : BitVec 16)
  /-- CHALLENGE. SPDM CHALLENGE (R434). -/
  | challenge (tr : Transport) (nonce : List Byte)
  /-- GET_MEASUREMENTS. SPDM GET_MEASUREMENTS; index 0xFF names all (R433). -/
  | getMeasurements (tr : Transport) (index : Byte) (signed : Bool) (nonce : List Byte)
  /-- SPDM_UNSUPPORTED. Any other SPDM request (R434). -/
  | spdmUnsupported (tr : Transport) (code : Byte)
  /-- FREEBOARD_RISE. A monitor reads a higher margin (R221). -/
  | freeboardRise (node : NodeNo) (mon : Fin 9) (margin : Byte)
  /-- INPUT_LOCKOUT_END. The 48 V input returns to its range (R384). -/
  | inputLockoutEnd (o : BootOutcome)
  /-- EN_HOLDOFF_EXPIRY. 10 ms after the last fall of EN (R461). -/
  | enHoldoffExpiry
  /-- BACKGROUND_TASK_PASS. A background task does its work and completes a pass; port: the port task 4 recalibrates (R415). -/
  | backgroundTaskPass (task : Fin 6) (port : PortNo)
  /-- FIRMWARE_SRAM_ERROR. An uncorrectable error in firmware SRAM (R408). -/
  | firmwareSramError
  /-- SVN_BURN_DONE. The SVN fuse burn ends (R428). -/
  | svnBurnDone
  /-- D3_TRANSITION. PF0 enters or leaves D3hot (R393). -/
  | d3Transition (enter : Bool)
  /-- VF_ENABLE_CLEAR. VF Enable is cleared (R363). -/
  | vfEnableClear
  /-- MCTP_CONTROL. An MCTP control message (R465). -/
  | mctpControl (msg : MctpMsg)
  /-- SET_EVENT_RECEIVER. A bus owner sets the PLDM event receiver (R468). -/
  | setEventReceiver (eid : Byte)
  deriving DecidableEq, Repr

end Sys2Proof
end

