-- ==== Sys2Proof/Decode.lean ====
section
/-!
DEFINITION. Reading commands from bits: the operation words of the eight slots of a bundle (R234, R235, R241, R243,
R270, R277, R280, R285, R286, R290, R253), and the command a word of the opcode table spells: none, since the table's
rows give no bits. The words of the operations stand beside their reading.
-/
namespace Sys2Proof

open Sys2Proof.Machine (fld bitN b2n wfld)

/-- The command of a word of nbits bits: none, since the table's rows give no bits. -/
def decodeTableWord (_nbits _w : Nat) : Option Instr := none

/-- What the word of a slot stands for: no operation, an operation, or a reserved encoding (R235, R240). -/
inductive SlotOp where
  | nop
  | op (i : Instr)
  | reserved
  deriving DecidableEq, Repr

/-- An operation when a condition on the encoding holds; else the encoding is reserved. -/
def okOp (c : Bool) (i : Instr) : SlotOp := if c then .op i else .reserved

/-- Register and index fields. -/
def gF (w : Word) (lo : Nat) : GReg := ⟨wfld w (lo + 4) lo % 32, Nat.mod_lt _ (by decide)⟩
def vF (w : Word) (lo : Nat) : VReg := ⟨wfld w (lo + 5) lo % 64, Nat.mod_lt _ (by decide)⟩
def pF (w : Word) (lo : Nat) : PReg := ⟨wfld w (lo + 2) lo % 8, Nat.mod_lt _ (by decide)⟩
def tagF (w : Word) : TagNo := ⟨wfld w 5 0 % 64, Nat.mod_lt _ (by decide)⟩
def qF (w : Word) : QNo := ⟨wfld w 21 19 % 8, Nat.mod_lt _ (by decide)⟩
def f2 (w : Word) (lo : Nat) : Fin 2 := ⟨wfld w lo lo % 2, Nat.mod_lt _ (by decide)⟩
def f4 (w : Word) (lo : Nat) : Fin 4 := ⟨wfld w (lo + 1) lo % 4, Nat.mod_lt _ (by decide)⟩
def f10 (w : Word) (lo : Nat) : Fin 1024 := ⟨wfld w (lo + 9) lo % 1024, Nat.mod_lt _ (by decide)⟩
def lenF (w : Word) (lo : Nat) : Fin 64 := ⟨wfld w (lo + 5) lo % 64, Nat.mod_lt _ (by decide)⟩

/-- Bits [hi:lo] of a word are 0. -/
def z (w : Word) (hi lo : Nat) : Bool := wfld w hi lo == 0

/-- C slot (R238, R243). -/
def decC (u : Site) (w : Word) : SlotOp :=
  match wfld w 31 26 with
  | 0x01 => okOp (z w 21 10) (.br u (f10 w 0))
  | 0x02 => .op (.loopI u (f4 w 20) (f10 w 10) (f10 w 0))
  | 0x03 => okOp (z w 9 5) (.loopR u (f4 w 20) (f10 w 10) (gF w 0))
  | 0x04 => okOp (z w 21 16 && !z w 15 0) (.delay u (BitVec.ofNat 16 (wfld w 15 0)))
  | 0x05 => okOp (z w 16 6) (.waitQ u (gF w 17) (tagF w))
  | 0x06 => okOp (z w 21 0) (.waitQall u)
  | 0x07 => okOp (z w 11 0) (.waitCyc u (gF w 17) (gF w 12))
  | 0x08 => okOp (z w 25 12) (.tide u.tile ⟨wfld w 11 0 % 4096, Nat.mod_lt _ (by decide)⟩)
  | 0x09 => okOp (z w 25 0) (.endProg u.tile)
  | _ => .reserved

/-- CMP of pcmp (R241). -/
def cmpF (w : Word) : Option Cmp :=
  match wfld w 8 6 with
  | 0 => some .eq
  | 1 => some .ne
  | 2 => some .lt
  | 3 => some .ltu
  | 4 => some .ge
  | 5 => some .geu
  | _ => none

/-- FN of plog (R241). -/
def pfnF (w : Word) : PFn :=
  match wfld w 10 9 with
  | 0 => .and
  | 1 => .or
  | 2 => .xor
  | _ => .andNot

/-- STATE of ts.bank (R241). -/
def bankF (w : Word) : Option BankTarget :=
  match wfld w 21 20 with
  | 0 => some .on
  | 1 => some .ret
  | 2 => some .off
  | _ => none

/-- S slot, format R (R241). -/
def decSR (u : Site) (w : Word) : SlotOp :=
  let ok := okOp (z w 6 0)
  let d := gF w 17
  let a := gF w 12
  let b := gF w 7
  match wfld w 31 26 with
  | 0x01 => ok (.add u d a b)
  | 0x02 => ok (.sub u d a b)
  | 0x03 => ok (.andR u d a b)
  | 0x04 => ok (.orR u d a b)
  | 0x05 => ok (.xorR u d a b)
  | 0x06 => ok (.sll u d a b)
  | 0x07 => ok (.srl u d a b)
  | 0x08 => ok (.sra u d a b)
  | 0x09 => ok (.slt u d a b)
  | 0x0A => ok (.sltu u d a b)
  | 0x0B => ok (.mul u d a b)
  | 0x0C => ok (.minS u d a b)
  | 0x0D => ok (.maxS u d a b)
  | 0x24 => okOp (z w 16 0) (.flagsRd u d)
  | 0x25 => okOp (z w 16 0) (.tidRd u d)
  | 0x26 => okOp (z w 16 0) (.spanRd u d)
  | 0x27 => okOp (z w 16 9 && z w 6 0) (.lcRd u d (f4 w 7))
  | _ => .reserved

/-- S slot, formats I and U (R241). -/
def decSI (u : Site) (w : Word) : SlotOp :=
  let d := gF w 17
  let a := gF w 12
  let imm := BitVec.ofNat 12 (wfld w 11 0)
  let sh := BitVec.ofNat 5 (wfld w 4 0)
  let i17 := BitVec.ofNat 17 (wfld w 16 0)
  match wfld w 31 26 with
  | 0x10 => .op (.addi u d a imm)
  | 0x11 => .op (.andi u d a imm)
  | 0x12 => .op (.ori u d a imm)
  | 0x13 => .op (.xori u d a imm)
  | 0x14 => okOp (z w 11 5) (.slli u d a sh)
  | 0x15 => okOp (z w 11 5) (.srli u d a sh)
  | 0x16 => okOp (z w 11 5) (.srai u d a sh)
  | 0x17 => .op (.slti u d a imm)
  | 0x18 => .op (.ldi u d i17)
  | 0x19 => .op (.ldih u d i17)
  | 0x1C => .op (.ldW u d a imm)
  | 0x1D => .op (.stW u d a imm)
  | _ => .reserved

/-- S slot, predicates and banks (R241). -/
def decSP (u : Site) (w : Word) : SlotOp :=
  match wfld w 31 26 with
  | 0x20 => match cmpF w with
    | some c => okOp (z w 5 0) (.pcmp u (pF w 19) (gF w 14) (gF w 9) c)
    | none => .reserved
  | 0x21 => okOp (z w 15 14 && z w 8 0) (.plog u (pF w 19) (pF w 16) (pF w 11) (pfnF w))
  | 0x22 => okOp (z w 18 1) (.pset u (pF w 19) (bitN w.toNat 0))
  | 0x28 => match bankF w with
    | some st => okOp (z w 19 17 && z w 11 6) (.tsBank u st (gF w 12) (tagF w))
    | none => .reserved
  | _ => .reserved

/-- S slot. -/
def decS (u : Site) (w : Word) : SlotOp :=
  let op := wfld w 31 26
  if op < 0x10 || (0x24 ≤ op && op < 0x28) then decSR u w
  else if op < 0x20 then decSI u w
  else decSP u w

/-- M0 and M1 (R270). -/
def decM (u : Site) (arr : Fin 2) (w : Word) : SlotOp :=
  match wfld w 31 26 with
  | 0x01 => .op (.mmStream u arr (gF w 17) (gF w 12) (gF w 7) (gF w 2) (f2 w 1) (bitN w.toNat 0))
  | 0x02 => okOp (z w 16 0) (.mmCfg u arr (gF w 17))
  | 0x03 => okOp (z w 20 0) (.mmPwr u arr (bitN w.toNat 21))
  | _ => .reserved

/-- F slot (R277). -/
def decF (u : Site) (w : Word) : SlotOp :=
  let m := BitVec.ofNat 4 (wfld w 21 18)
  match wfld w 31 26 with
  | 0x01 => okOp (z w 1 0 && m != 0)
      (.feltInject u m (BitVec.ofNat 4 (wfld w 17 14)) (gF w 9) (gF w 4) (bitN w.toNat 3) (bitN w.toNat 2))
  | 0x02 => okOp (z w 16 14 && z w 8 0 && m != 0) (.feltRemove u m (bitN w.toNat 17) (gF w 9))
  | 0x03 => okOp (z w 17 14 && z w 8 0 && m != 0) (.feltCopy u m (gF w 9))
  | _ => .reserved

/-- D slot (R280). -/
def decD (u : Site) (w : Word) : SlotOp :=
  match wfld w 31 26 with
  | 0x01 => okOp (z w 0 0)
      (.couchDrain u (f2 w 21) (f2 w 20) ⟨wfld w 19 16 % 16, Nat.mod_lt _ (by decide)⟩ (gF w 11) (gF w 6) (gF w 1))
  | 0x02 => okOp (z w 12 0) (.couchSet u ⟨wfld w 21 18 % 16, Nat.mod_lt _ (by decide)⟩ (gF w 13))
  | _ => .reserved

/-- MOD of vcmp, vtr and vred (R285). -/
def vcmpF (m : Nat) : Option VCmp :=
  match m with
  | 0 => some .eq
  | 1 => some .ne
  | 2 => some .lt
  | 3 => some .le
  | 4 => some .unordered
  | _ => none
def trF (m : Nat) : Option TrFn :=
  match m with
  | 0 => some .exp
  | 1 => some .exp2
  | 2 => some .log
  | 3 => some .log2
  | 4 => some .recip
  | 5 => some .rsqrt
  | 6 => some .tanh
  | 7 => some .sigmoid
  | 8 => some .erf
  | _ => none
def redF (m : Nat) : Option RedFn :=
  match m with
  | 0 => some .sum
  | 1 => some .max
  | 2 => some .min
  | 3 => some .maxNum
  | 4 => some .minNum
  | 5 => some .maxAbs
  | _ => none

/-- FMT and RM of vcvt, SZ of vld and vst (R285, R286). -/
def cvtF (c : Nat) : Option CvtFmt :=
  match c with
  | 0 => some .e4m3
  | 1 => some .e5m2
  | 2 => some .mxE4m3
  | 3 => some .mxE5m2
  | 4 => some .mxE3m2
  | 5 => some .mxE2m3
  | 6 => some .mxE2m1
  | 7 => some .mxInt8
  | 8 => some .bf16
  | 9 => some .fp16
  | _ => none
def rmF (m : Nat) : Option RMode :=
  match m with
  | 0 => some .rne
  | 1 => some .zero
  | 2 => some .up
  | 3 => some .down
  | 4 => some .stochastic
  | _ => none
def szF (m : Nat) : Option VSize :=
  match m with
  | 0 => some .b128
  | 1 => some .b64
  | 2 => some .b32
  | _ => none

/-- V slot, register form VR (R285). -/
def decVR (u : Site) (w : Word) : SlotOp :=
  let d := vF w 16
  let a := vF w 10
  let b := vF w 4
  let pk := bitN w.toNat 0
  let m := wfld w 3 0
  let okP := okOp (z w 3 1)
  let ok0 := okOp (z w 3 0)
  let ok1 := okOp (z w 9 0)
  match wfld w 31 26 with
  | 0x01 => okP (.vadd u d a b pk)
  | 0x02 => okP (.vsub u d a b pk)
  | 0x03 => okP (.vmul u d a b pk)
  | 0x04 => okP (.vfma u d a b pk)
  | 0x05 => okP (.vfnma u d a b pk)
  | 0x06 => okP (.vmin u d a b pk)
  | 0x07 => okP (.vmax u d a b pk)
  | 0x08 => okP (.vminn u d a b pk)
  | 0x09 => okP (.vmaxn u d a b pk)
  | 0x0A => ok1 (.vabs u d a)
  | 0x0B => ok1 (.vneg u d a)
  | 0x0C => match vcmpF m with
    | some c => .op (.vcmp u d a b c)
    | none => .reserved
  | 0x0D => ok0 (.vsel u d a b)
  | 0x10 => ok0 (.vdiv u d a b)
  | 0x11 => ok1 (.vsqrt u d a)
  | 0x12 => match trF m with
    | some f => okOp (z w 9 4) (.vtr u d a f)
    | none => .reserved
  | 0x14 => match redF m with
    | some f => okOp (z w 9 4) (.vred u d a f)
    | none => .reserved
  | 0x1C => ok0 (.viadd u d a b)
  | 0x1D => ok0 (.visub u d a b)
  | 0x1E => ok0 (.viand u d a b)
  | 0x1F => ok0 (.vior u d a b)
  | 0x20 => ok0 (.vixor u d a b)
  | 0x21 => ok0 (.visll u d a b)
  | 0x22 => ok0 (.visrl u d a b)
  | _ => .reserved

/-- V slot, conversions (R286). -/
def decVC (u : Site) (w : Word) : SlotOp :=
  let wid := bitN w.toNat 5
  match rmF (wfld w 4 2) with
  | none => .reserved
  | some rm =>
    if wfld w 31 26 = 0x18 then
      match cvtF (wfld w 9 6) with
      | some f => okOp (z w 1 0 && (!wid || rm == .rne)) (.vcvt u (vF w 16) (vF w 10) f wid rm)
      | none => .reserved
    else okOp (z w 1 0 && z w 9 6) (.vcvti u (vF w 16) (vF w 10) wid rm)

/-- V slot, the other forms (R285). -/
def decVM (u : Site) (w : Word) : SlotOp :=
  match wfld w 31 26 with
  | 0x28 => match szF (wfld w 10 9) with
    | some s => okOp (z w 8 0) (.vld u (vF w 16) (gF w 11) s)
    | none => .reserved
  | 0x29 => match szF (wfld w 10 9) with
    | some s => okOp (z w 8 0) (.vst u (vF w 16) (gF w 11) s)
    | none => .reserved
  | 0x2A => okOp (z w 10 0) (.vbc u (vF w 16) (gF w 11))
  | 0x2B => okOp (z w 15 0) (.vidx u (vF w 16))
  | 0x2C => okOp (z w 5 0) (.vmvg u (gF w 17) (vF w 11) (gF w 6))
  | 0x2D => okOp (z w 6 0) (.vSr u (gF w 17) (gF w 12) (gF w 7))
  | 0x30 => okOp (z w 7 0) (.vFelt u (f4 w 20) (vF w 14) (gF w 9) (bitN w.toNat 8))
  | 0x31 => okOp (z w 5 0) (.vLp u (vF w 16) (gF w 11) (gF w 6))
  | _ => .reserved

/-- V slot. -/
def decV (u : Site) (w : Word) : SlotOp :=
  let op := wfld w 31 26
  if op = 0x18 ∨ op = 0x19 then decVC u w else if op < 0x28 then decVR u w else decVM u w

/-- X slot (R253, R290). -/
def decX (u : Site) (w : Word) : SlotOp :=
  match wfld w 31 26 with
  | 0x01 => okOp (z w 0 0) (.meshSend u (gF w 17) (gF w 12) (gF w 7) (lenF w 1))
  | 0x02 => okOp (z w 3 0) (.rvRead u (f4 w 20) (gF w 15) (gF w 10) (lenF w 4))
  | 0x03 => okOp (z w 3 0) (.rvWrite u (f4 w 20) (gF w 15) (gF w 10) (lenF w 4))
  | 0x04 => okOp (z w 13 0) (.qPush u (qF w) (gF w 14))
  | 0x05 => okOp (z w 16 0) (.pulpStart u (gF w 17))
  | 0x08 => okOp (z w 8 6) (.wvPin u (qF w) (gF w 14) (gF w 9) (tagF w))
  | 0x09 => okOp (z w 8 6) (.wvUnpin u (qF w) (gF w 14) (gF w 9) (tagF w))
  | 0x0A => okOp (z w 13 6) (.wvClaim u (qF w) (gF w 14) (tagF w))
  | 0x0B => okOp (z w 13 6) (.wvPublish u (qF w) (gF w 14) (tagF w))
  | 0x3F => okOp (z w 13 0) (.chainRun u ⟨wfld w 21 14 % 256, Nat.mod_lt _ (by decide)⟩)
  | _ => .reserved

/-- The tile and predicate of an operation word (R235). -/
def wordSite (t : TileId) (w : Word) : Site := ⟨t, bitN w.toNat 25, pF w 22⟩

/-- The operation word of slot k of a bundle of a tile (R234, R235). -/
def decodeSlot (t : TileId) (k : Nat) (w : Word) : SlotOp :=
  if wfld w 31 26 = 0 then (if w = 0 then .nop else .reserved)
  else
    let u : Site := wordSite t w
    match k with
    | 0 => decC u w
    | 1 => decS u w
    | 2 => decM u 0 w
    | 3 => decM u 1 w
    | 4 => decF u w
    | 5 => decD u w
    | 6 => decV u w
    | _ => decX u w

/-! ### The words of operations -/

/-- Codes of the named fields, as `decodeSlot` reads them. -/
def cmpC : Cmp → Nat
  | .eq => 0
  | .ne => 1
  | .lt => 2
  | .ltu => 3
  | .ge => 4
  | .geu => 5
def pfnC : PFn → Nat
  | .and => 0
  | .or => 1
  | .xor => 2
  | .andNot => 3
def bankC : BankTarget → Nat
  | .on => 0
  | .ret => 1
  | .off => 2
def vcmpC : VCmp → Nat
  | .eq => 0
  | .ne => 1
  | .lt => 2
  | .le => 3
  | .unordered => 4
def trC : TrFn → Nat
  | .exp => 0
  | .exp2 => 1
  | .log => 2
  | .log2 => 3
  | .recip => 4
  | .rsqrt => 5
  | .tanh => 6
  | .sigmoid => 7
  | .erf => 8
def redC : RedFn → Nat
  | .sum => 0
  | .max => 1
  | .min => 2
  | .maxNum => 3
  | .minNum => 4
  | .maxAbs => 5
def cvtC : CvtFmt → Nat
  | .e4m3 => 0
  | .e5m2 => 1
  | .mxE4m3 => 2
  | .mxE5m2 => 3
  | .mxE3m2 => 4
  | .mxE2m3 => 5
  | .mxE2m1 => 6
  | .mxInt8 => 7
  | .bf16 => 8
  | .fp16 => 9
def rmC : RMode → Nat
  | .rne => 0
  | .zero => 1
  | .up => 2
  | .down => 3
  | .stochastic => 4
def szC : VSize → Nat
  | .b128 => 0
  | .b64 => 1
  | .b32 => 2

/-- The sum of values, each at its lowest bit. -/
def bitsOf : List (Nat × Nat) → Nat
  | [] => 0
  | (v, lo) :: r => v * 2 ^ lo + bitsOf r

/-- A word from its opcode, its predicate fields and its other fields, each with its lowest bit (R235). -/
def slotWordOf (op : Nat) (u : Site) (body : List (Nat × Nat)) : Word :=
  BitVec.ofNat 32 (bitsOf ((op, 26) :: (b2n u.neg, 25) :: (u.pred.val, 22) :: body))

/-- The word of an operation in its slot; 0 for a command that is no operation of a slot. -/
def encodeSlot : Instr → Word
  | .br u target => slotWordOf 0x01 u [(target.val, 0)]
  | .loopI u k stop count => slotWordOf 0x02 u [(k.val, 20), (stop.val, 10), (count.val, 0)]
  | .loopR u k stop ra => slotWordOf 0x03 u [(k.val, 20), (stop.val, 10), (ra.val, 0)]
  | .delay u n => slotWordOf 0x04 u [(n.toNat, 0)]
  | .waitQ u rd tag => slotWordOf 0x05 u [(rd.val, 17), (tag.val, 0)]
  | .waitQall u => slotWordOf 0x06 u []
  | .waitCyc u rd ra => slotWordOf 0x07 u [(rd.val, 17), (ra.val, 12)]
  | .add u rd ra rb => slotWordOf 0x01 u [(rd.val, 17), (ra.val, 12), (rb.val, 7)]
  | .sub u rd ra rb => slotWordOf 0x02 u [(rd.val, 17), (ra.val, 12), (rb.val, 7)]
  | .andR u rd ra rb => slotWordOf 0x03 u [(rd.val, 17), (ra.val, 12), (rb.val, 7)]
  | .orR u rd ra rb => slotWordOf 0x04 u [(rd.val, 17), (ra.val, 12), (rb.val, 7)]
  | .xorR u rd ra rb => slotWordOf 0x05 u [(rd.val, 17), (ra.val, 12), (rb.val, 7)]
  | .sll u rd ra rb => slotWordOf 0x06 u [(rd.val, 17), (ra.val, 12), (rb.val, 7)]
  | .srl u rd ra rb => slotWordOf 0x07 u [(rd.val, 17), (ra.val, 12), (rb.val, 7)]
  | .sra u rd ra rb => slotWordOf 0x08 u [(rd.val, 17), (ra.val, 12), (rb.val, 7)]
  | .slt u rd ra rb => slotWordOf 0x09 u [(rd.val, 17), (ra.val, 12), (rb.val, 7)]
  | .sltu u rd ra rb => slotWordOf 0x0A u [(rd.val, 17), (ra.val, 12), (rb.val, 7)]
  | .mul u rd ra rb => slotWordOf 0x0B u [(rd.val, 17), (ra.val, 12), (rb.val, 7)]
  | .minS u rd ra rb => slotWordOf 0x0C u [(rd.val, 17), (ra.val, 12), (rb.val, 7)]
  | .maxS u rd ra rb => slotWordOf 0x0D u [(rd.val, 17), (ra.val, 12), (rb.val, 7)]
  | .addi u rd ra imm => slotWordOf 0x10 u [(rd.val, 17), (ra.val, 12), (imm.toNat, 0)]
  | .andi u rd ra imm => slotWordOf 0x11 u [(rd.val, 17), (ra.val, 12), (imm.toNat, 0)]
  | .ori u rd ra imm => slotWordOf 0x12 u [(rd.val, 17), (ra.val, 12), (imm.toNat, 0)]
  | .xori u rd ra imm => slotWordOf 0x13 u [(rd.val, 17), (ra.val, 12), (imm.toNat, 0)]
  | .slti u rd ra imm => slotWordOf 0x17 u [(rd.val, 17), (ra.val, 12), (imm.toNat, 0)]
  | .ldW u rd ra imm => slotWordOf 0x1C u [(rd.val, 17), (ra.val, 12), (imm.toNat, 0)]
  | .stW u rd ra imm => slotWordOf 0x1D u [(rd.val, 17), (ra.val, 12), (imm.toNat, 0)]
  | .slli u rd ra sh => slotWordOf 0x14 u [(rd.val, 17), (ra.val, 12), (sh.toNat, 0)]
  | .srli u rd ra sh => slotWordOf 0x15 u [(rd.val, 17), (ra.val, 12), (sh.toNat, 0)]
  | .srai u rd ra sh => slotWordOf 0x16 u [(rd.val, 17), (ra.val, 12), (sh.toNat, 0)]
  | .ldi u rd imm => slotWordOf 0x18 u [(rd.val, 17), (imm.toNat, 0)]
  | .ldih u rd imm => slotWordOf 0x19 u [(rd.val, 17), (imm.toNat, 0)]
  | .pcmp u pd ra rb c => slotWordOf 0x20 u [(pd.val, 19), (ra.val, 14), (rb.val, 9), (cmpC c, 6)]
  | .plog u pd pa pb f => slotWordOf 0x21 u [(pd.val, 19), (pa.val, 16), (pb.val, 11), (pfnC f, 9)]
  | .pset u pd v => slotWordOf 0x22 u [(pd.val, 19), (b2n v, 0)]
  | .flagsRd u rd => slotWordOf 0x24 u [(rd.val, 17)]
  | .tidRd u rd => slotWordOf 0x25 u [(rd.val, 17)]
  | .spanRd u rd => slotWordOf 0x26 u [(rd.val, 17)]
  | .lcRd u rd k => slotWordOf 0x27 u [(rd.val, 17), (k.val, 7)]
  | .tsBank u target ra tag => slotWordOf 0x28 u [(bankC target, 20), (ra.val, 12), (tag.val, 0)]
  | .mmStream u _ rl rls rr rrs set cont => slotWordOf 0x01 u [(rl.val, 17), (rls.val, 12), (rr.val, 7), (rrs.val, 2), (set.val, 1), (b2n cont, 0)]
  | .mmCfg u _ ra => slotWordOf 0x02 u [(ra.val, 17)]
  | .mmPwr u _ off => slotWordOf 0x03 u [(b2n off, 21)]
  | .feltInject u lmask revs ra rs sc sw => slotWordOf 0x01 u [(lmask.toNat, 18), (revs.toNat, 14), (ra.val, 9), (rs.val, 4), (b2n sc, 3), (b2n sw, 2)]
  | .feltRemove u lmask wr ra => slotWordOf 0x02 u [(lmask.toNat, 18), (b2n wr, 17), (ra.val, 9)]
  | .feltCopy u lmask ra => slotWordOf 0x03 u [(lmask.toNat, 18), (ra.val, 9)]
  | .couchDrain u arr set epi re rs ru => slotWordOf 0x01 u [(arr.val, 21), (set.val, 20), (epi.val, 16), (re.val, 11), (rs.val, 6), (ru.val, 1)]
  | .couchSet u epi ra => slotWordOf 0x02 u [(epi.val, 18), (ra.val, 13)]
  | .vadd u vd va vb pk => slotWordOf 0x01 u [(vd.val, 16), (va.val, 10), (vb.val, 4), (b2n pk, 0)]
  | .vsub u vd va vb pk => slotWordOf 0x02 u [(vd.val, 16), (va.val, 10), (vb.val, 4), (b2n pk, 0)]
  | .vmul u vd va vb pk => slotWordOf 0x03 u [(vd.val, 16), (va.val, 10), (vb.val, 4), (b2n pk, 0)]
  | .vfma u vd va vb pk => slotWordOf 0x04 u [(vd.val, 16), (va.val, 10), (vb.val, 4), (b2n pk, 0)]
  | .vfnma u vd va vb pk => slotWordOf 0x05 u [(vd.val, 16), (va.val, 10), (vb.val, 4), (b2n pk, 0)]
  | .vmin u vd va vb pk => slotWordOf 0x06 u [(vd.val, 16), (va.val, 10), (vb.val, 4), (b2n pk, 0)]
  | .vmax u vd va vb pk => slotWordOf 0x07 u [(vd.val, 16), (va.val, 10), (vb.val, 4), (b2n pk, 0)]
  | .vminn u vd va vb pk => slotWordOf 0x08 u [(vd.val, 16), (va.val, 10), (vb.val, 4), (b2n pk, 0)]
  | .vmaxn u vd va vb pk => slotWordOf 0x09 u [(vd.val, 16), (va.val, 10), (vb.val, 4), (b2n pk, 0)]
  | .vabs u vd va => slotWordOf 0x0A u [(vd.val, 16), (va.val, 10)]
  | .vneg u vd va => slotWordOf 0x0B u [(vd.val, 16), (va.val, 10)]
  | .vcmp u vd va vb c => slotWordOf 0x0C u [(vd.val, 16), (va.val, 10), (vb.val, 4), (vcmpC c, 0)]
  | .vsel u vd va vb => slotWordOf 0x0D u [(vd.val, 16), (va.val, 10), (vb.val, 4)]
  | .vdiv u vd va vb => slotWordOf 0x10 u [(vd.val, 16), (va.val, 10), (vb.val, 4)]
  | .vsqrt u vd va => slotWordOf 0x11 u [(vd.val, 16), (va.val, 10)]
  | .vtr u vd va f => slotWordOf 0x12 u [(vd.val, 16), (va.val, 10), (trC f, 0)]
  | .vred u vd va f => slotWordOf 0x14 u [(vd.val, 16), (va.val, 10), (redC f, 0)]
  | .vcvt u vd va fmt wid rm => slotWordOf 0x18 u [(vd.val, 16), (va.val, 10), (cvtC fmt, 6), (b2n wid, 5), (rmC rm, 2)]
  | .vcvti u vd va wid rm => slotWordOf 0x19 u [(vd.val, 16), (va.val, 10), (b2n wid, 5), (rmC rm, 2)]
  | .viadd u vd va vb => slotWordOf 0x1C u [(vd.val, 16), (va.val, 10), (vb.val, 4)]
  | .visub u vd va vb => slotWordOf 0x1D u [(vd.val, 16), (va.val, 10), (vb.val, 4)]
  | .viand u vd va vb => slotWordOf 0x1E u [(vd.val, 16), (va.val, 10), (vb.val, 4)]
  | .vior u vd va vb => slotWordOf 0x1F u [(vd.val, 16), (va.val, 10), (vb.val, 4)]
  | .vixor u vd va vb => slotWordOf 0x20 u [(vd.val, 16), (va.val, 10), (vb.val, 4)]
  | .visll u vd va vb => slotWordOf 0x21 u [(vd.val, 16), (va.val, 10), (vb.val, 4)]
  | .visrl u vd va vb => slotWordOf 0x22 u [(vd.val, 16), (va.val, 10), (vb.val, 4)]
  | .vld u vd ra sz => slotWordOf 0x28 u [(vd.val, 16), (ra.val, 11), (szC sz, 9)]
  | .vst u va ra sz => slotWordOf 0x29 u [(va.val, 16), (ra.val, 11), (szC sz, 9)]
  | .vbc u vd ra => slotWordOf 0x2A u [(vd.val, 16), (ra.val, 11)]
  | .vidx u vd => slotWordOf 0x2B u [(vd.val, 16)]
  | .vmvg u rd va lane => slotWordOf 0x2C u [(rd.val, 17), (va.val, 11), (lane.val, 6)]
  | .vSr u ra rb rc => slotWordOf 0x2D u [(ra.val, 17), (rb.val, 12), (rc.val, 7)]
  | .vFelt u lane va rs scf => slotWordOf 0x30 u [(lane.val, 20), (va.val, 14), (rs.val, 9), (b2n scf, 8)]
  | .vLp u va ra rb => slotWordOf 0x31 u [(va.val, 16), (ra.val, 11), (rb.val, 6)]
  | .meshSend u r1 r2 r3 len => slotWordOf 0x01 u [(r1.val, 17), (r2.val, 12), (r3.val, 7), (len.val, 1)]
  | .rvRead u lev ro ra len => slotWordOf 0x02 u [(lev.val, 20), (ro.val, 15), (ra.val, 10), (len.val, 4)]
  | .rvWrite u lev ro ra len => slotWordOf 0x03 u [(lev.val, 20), (ro.val, 15), (ra.val, 10), (len.val, 4)]
  | .qPush u q ra => slotWordOf 0x04 u [(q.val, 19), (ra.val, 14)]
  | .pulpStart u ra => slotWordOf 0x05 u [(ra.val, 17)]
  | .wvPin u q re rv tag => slotWordOf 0x08 u [(q.val, 19), (re.val, 14), (rv.val, 9), (tag.val, 0)]
  | .wvUnpin u q re rv tag => slotWordOf 0x09 u [(q.val, 19), (re.val, 14), (rv.val, 9), (tag.val, 0)]
  | .wvClaim u q re tag => slotWordOf 0x0A u [(q.val, 19), (re.val, 14), (tag.val, 0)]
  | .wvPublish u q re tag => slotWordOf 0x0B u [(q.val, 19), (re.val, 14), (tag.val, 0)]
  | .chainRun u chain => slotWordOf 0x3F u [(chain.val, 14)]
  | .tide _ span => BitVec.ofNat 32 (bitsOf [(0x08, 26), (span.val, 0)])
  | .endProg _ => BitVec.ofNat 32 (bitsOf [(0x09, 26)])
  | _ => 0

/-- A tile and a slot. -/
def inSlot (t : TileId) (k : Nat) : Option (TileId × Nat) := some (t, k)

/-- The tile and the slot of a bundle that an operation stands in: C, S, M0, M1, F, D, V, X (R234). -/
def slotPlace : Instr → Option (TileId × Nat)
  | .br u _ => inSlot u.tile 0
  | .loopI u _ _ _ => inSlot u.tile 0
  | .loopR u _ _ _ => inSlot u.tile 0
  | .delay u _ => inSlot u.tile 0
  | .waitQ u _ _ => inSlot u.tile 0
  | .waitQall u => inSlot u.tile 0
  | .waitCyc u _ _ => inSlot u.tile 0
  | .add u _ _ _ => inSlot u.tile 1
  | .sub u _ _ _ => inSlot u.tile 1
  | .andR u _ _ _ => inSlot u.tile 1
  | .orR u _ _ _ => inSlot u.tile 1
  | .xorR u _ _ _ => inSlot u.tile 1
  | .sll u _ _ _ => inSlot u.tile 1
  | .srl u _ _ _ => inSlot u.tile 1
  | .sra u _ _ _ => inSlot u.tile 1
  | .slt u _ _ _ => inSlot u.tile 1
  | .sltu u _ _ _ => inSlot u.tile 1
  | .mul u _ _ _ => inSlot u.tile 1
  | .minS u _ _ _ => inSlot u.tile 1
  | .maxS u _ _ _ => inSlot u.tile 1
  | .addi u _ _ _ => inSlot u.tile 1
  | .andi u _ _ _ => inSlot u.tile 1
  | .ori u _ _ _ => inSlot u.tile 1
  | .xori u _ _ _ => inSlot u.tile 1
  | .slti u _ _ _ => inSlot u.tile 1
  | .ldW u _ _ _ => inSlot u.tile 1
  | .stW u _ _ _ => inSlot u.tile 1
  | .slli u _ _ _ => inSlot u.tile 1
  | .srli u _ _ _ => inSlot u.tile 1
  | .srai u _ _ _ => inSlot u.tile 1
  | .ldi u _ _ => inSlot u.tile 1
  | .ldih u _ _ => inSlot u.tile 1
  | .pcmp u _ _ _ _ => inSlot u.tile 1
  | .plog u _ _ _ _ => inSlot u.tile 1
  | .pset u _ _ => inSlot u.tile 1
  | .flagsRd u _ => inSlot u.tile 1
  | .tidRd u _ => inSlot u.tile 1
  | .spanRd u _ => inSlot u.tile 1
  | .lcRd u _ _ => inSlot u.tile 1
  | .tsBank u _ _ _ => inSlot u.tile 1
  | .mmStream u arr _ _ _ _ _ _ => inSlot u.tile (2 + arr.val)
  | .mmCfg u arr _ => inSlot u.tile (2 + arr.val)
  | .mmPwr u arr _ => inSlot u.tile (2 + arr.val)
  | .feltInject u _ _ _ _ _ _ => inSlot u.tile 4
  | .feltRemove u _ _ _ => inSlot u.tile 4
  | .feltCopy u _ _ => inSlot u.tile 4
  | .couchDrain u _ _ _ _ _ _ => inSlot u.tile 5
  | .couchSet u _ _ => inSlot u.tile 5
  | .vadd u _ _ _ _ => inSlot u.tile 6
  | .vsub u _ _ _ _ => inSlot u.tile 6
  | .vmul u _ _ _ _ => inSlot u.tile 6
  | .vfma u _ _ _ _ => inSlot u.tile 6
  | .vfnma u _ _ _ _ => inSlot u.tile 6
  | .vmin u _ _ _ _ => inSlot u.tile 6
  | .vmax u _ _ _ _ => inSlot u.tile 6
  | .vminn u _ _ _ _ => inSlot u.tile 6
  | .vmaxn u _ _ _ _ => inSlot u.tile 6
  | .vabs u _ _ => inSlot u.tile 6
  | .vneg u _ _ => inSlot u.tile 6
  | .vcmp u _ _ _ _ => inSlot u.tile 6
  | .vsel u _ _ _ => inSlot u.tile 6
  | .vdiv u _ _ _ => inSlot u.tile 6
  | .vsqrt u _ _ => inSlot u.tile 6
  | .vtr u _ _ _ => inSlot u.tile 6
  | .vred u _ _ _ => inSlot u.tile 6
  | .vcvt u _ _ _ _ _ => inSlot u.tile 6
  | .vcvti u _ _ _ _ => inSlot u.tile 6
  | .viadd u _ _ _ => inSlot u.tile 6
  | .visub u _ _ _ => inSlot u.tile 6
  | .viand u _ _ _ => inSlot u.tile 6
  | .vior u _ _ _ => inSlot u.tile 6
  | .vixor u _ _ _ => inSlot u.tile 6
  | .visll u _ _ _ => inSlot u.tile 6
  | .visrl u _ _ _ => inSlot u.tile 6
  | .vld u _ _ _ => inSlot u.tile 6
  | .vst u _ _ _ => inSlot u.tile 6
  | .vbc u _ _ => inSlot u.tile 6
  | .vidx u _ => inSlot u.tile 6
  | .vmvg u _ _ _ => inSlot u.tile 6
  | .vSr u _ _ _ => inSlot u.tile 6
  | .vFelt u _ _ _ _ => inSlot u.tile 6
  | .vLp u _ _ _ => inSlot u.tile 6
  | .meshSend u _ _ _ _ => inSlot u.tile 7
  | .rvRead u _ _ _ _ => inSlot u.tile 7
  | .rvWrite u _ _ _ _ => inSlot u.tile 7
  | .qPush u _ _ => inSlot u.tile 7
  | .pulpStart u _ => inSlot u.tile 7
  | .wvPin u _ _ _ _ => inSlot u.tile 7
  | .wvUnpin u _ _ _ _ => inSlot u.tile 7
  | .wvClaim u _ _ _ => inSlot u.tile 7
  | .wvPublish u _ _ _ => inSlot u.tile 7
  | .chainRun u _ => inSlot u.tile 7
  | .tide t _ => inSlot t 0
  | .endProg t => inSlot t 0
  | _ => none

end Sys2Proof
end

