-- ==== Sys2Proof/Config.lean ====
section
/-!
DEFINITION. What one module fixes and the spec leaves open: fuses, the factory contents of the flash, and the free
values. Every constant here is opaque: nothing can be proved of its value.
-/
namespace Sys2Proof.Config

/-- Free value n of the run: any 32-bit word (log entry 2). -/
opaque freeWord : Nat → Word

/-- What start-up finds in the units it trains and tests after a reset that no command describes (R372; log entry 88). -/
opaque bootOutcome : Nat → BootOutcome

/-- Invalid is signalled by a fused multiply-add of infinity and zero with a quiet NaN, which IEEE 754-2019 leaves to the
implementation (R65; log entry 137). -/
opaque fmaQuietInvalid : Bool

/-- The zero result of tanh (false) or erf (true) at −0 is −0: R70 gives no sign (log entry 139). -/
opaque zeroNegative : Bool → Bool

/-- An exact zero sum of two BF16 elements in the levee adder is −0: R155 gives no sign (log entry 113). -/
opaque zeroSumNegative : Nat → Nat → Bool

/-- The reason with which an offset or size of a weight version that is no multiple of 256 is refused: R263 and R474 name none
(log entry 83). -/
opaque wvAlignReason : Byte

/-- Word w, after the common ids, of an INTERSECT slot that its ids leave unused, for a descriptor and two lists (R201;
log entry 21). -/
opaque slotWord : Nat → List Nat → List Nat → Nat → Word

/-- Element of a row that a chain stage takes where no drain delivers one: by tile, span number, span cycle and lane (R254;
log entry 116). -/
opaque lostWord : Nat → Nat → Nat → Nat → Word

/-- Physical column of the faulty tile of a row of tiles, if the row has one: the fuses retire it (R26, R28). -/
opaque faultyColumn : Fin 48 → Option (Fin 49)

/-- A faulty tile of the row is retired (R29). -/
def spareUsed (r : Fin 48) : Bool := (faultyColumn r).isSome

/-- Physical column p_r that the fuses retire in a row, 48 where no tile is faulty (R26, R29). -/
def retiredColumn (r : Fin 48) : Fin 49 := (faultyColumn r).getD 48

/-- Physical column of logical column c of a row (R26). -/
def physColumn (r c : Fin 48) : Fin 49 := if c.val < (retiredColumn r).val then c.castSucc else c.succ

/-- Physical row, or column (true), of an array that the fuses retire, if it uses its spare (R31). -/
opaque repairOf : TileId → Fin 2 → Bool → Option (Fin 33)

/-- The array repairs in ascending tile id, then array, rows before columns (R414): tile, array, spare column?,
physical row or column retired. -/
def repairs : List (TileId × Fin 2 × Bool × Fin 33) :=
  (List.finRange 2304).flatMap fun t => (List.finRange 2).flatMap fun a => [false, true].filterMap fun col =>
    (repairOf t a col).map fun n => (t, a, col, n)

/-- Boot ROM version (R440). -/
opaque romVersion : Word

/-- Debug lock fuse (R439). -/
opaque debugLock : Bool

/-- Image keys revoked by fuse, bit k for key k (R425). -/
opaque revoked : BitVec 4

/-- The fused security version number as the module is delivered (R428). -/
opaque svnFuse : BitVec 6

/-- The fuse that holds the digest of the identity key (R430), and the hidden seed the key derives from. -/
opaque idKeyDigest : Vector Byte 32
opaque idSeed : Vector Byte 32

/-- Digests of the image keys in the fuses (R425). -/
opaque keyDigest : Fin 4 → Vector Byte 32

/-- Serial number of the module in the fuses, and the day it was made, as the FRU record states it (R469). -/
opaque serial : BitVec 64
opaque madeOn : Word

/-- Address straps SLOT_ID0–4 (R457). -/
opaque slotId : BitVec 5

/-- The second copy of the number of a logbook record, by that number, where a word of it cannot be corrected (R408, R450). -/
opaque brokenCopy : Nat → Word

/-- Contents of the boot ROM (R432), of the 8 KiB certificate area (R430), and the hash of the root certificate (R436). -/
opaque rom : List Byte
opaque otp : Nat → Byte
opaque rootHash : Vector Byte 64

/-- The message that SPDM 1.2 defines for a signed response, of the exchanges of its connection since GET_VERSION, the last of them
the one that is signed (R435; log entry 15). -/
opaque spdmMessage : List SpdmExch → List Byte

/-- What a PCIe link trains to: the generation less one, and the width as a power of two (R344; log entry 158). -/
opaque pcieLink : Nat → Fin 6 × Fin 3

/-- The AER uncorrectable status that a failed read of host memory leaves (R344, R359; log entry 158). -/
opaque dmaError : Nat → Word

/-- Factory contents of the configuration flash (R369). -/
opaque flash : Nat → Byte

/-- SHAKE256 of bytes with an output length (R426). -/
opaque shake256 : List Byte → Nat → List Byte

/-- Falcon-1024 verification of a signature over bytes by a public key (R426), key generation from a seed (public key without its
header byte, private key) and signing with a random nonce (signature without its header byte) (R430, R431). -/
opaque falconVerify : List Byte → List Byte → List Byte → Bool
opaque falconKeyBody : List Byte → Vector Byte 1792 × List Byte
opaque falconSignBody : List Byte → List Byte → Nat → Vector Byte 1279

/-- A key pair: the public key of 1,793 bytes with header byte 0x0A, and the private key (R431). -/
def falconKey (seed : List Byte) : List Byte × List Byte := (0x0A :: (falconKeyBody seed).1.toList, (falconKeyBody seed).2)

/-- A signature of 1,280 bytes with header byte 0x3A (R431). -/
def falconSign (key msg : List Byte) (nonce : Nat) : List Byte := 0x3A :: (falconSignBody key msg nonce).toList

/-- Parity bytes of an HBM codeword, whose generator no rule gives (R407; log entry 178). -/
opaque hbmParity : Bytes → Vector Byte 14

end Sys2Proof.Config
end

