-- ==== Sys2Proof/Machine/Flags.lean ====
section
/-!
DEFINITION. The sticky arithmetic flags (R71, R73) as bits of a number.
-/
namespace Sys2Proof.Machine.AF

/-- AF_NV: invalid operation, signalling NaN operand, invalid conversion. -/
abbrev NV : Nat := 0x01
/-- AF_DZ: division by zero, or a pole. -/
abbrev DZ : Nat := 0x02
/-- AF_OF: overflow to ±∞ in the vector unit, the Couch, or BF16 or FP16 output. -/
abbrev OF : Nat := 0x04
/-- AF_UF: tiny and inexact (R472). -/
abbrev UF : Nat := 0x08
/-- AF_AOF: an array accumulator rounded from finite to ±∞. -/
abbrev AOF : Nat := 0x10
/-- AF_ANAN: an array created a NaN from non-NaN operands. -/
abbrev ANAN : Nat := 0x20
/-- AF_SAT: a conversion saturated. -/
abbrev SAT : Nat := 0x40
/-- AF_MXNAN: the Couch wrote an MX block with scale 0xFF. -/
abbrev MXNAN : Nat := 0x80

end Sys2Proof.Machine.AF
end

