-- ==== Sys2Proof/Machine/Float.lean ====
section
/-!
DEFINITION. Floating-point values and their formats (R46–R51), the one rounding of an exact value (R60, R64, R472),
and IEEE 754-2019 arithmetic over exact dyadic values (R56, R65–R69).
-/
namespace Sys2Proof.Machine

/-- A value: NaN (signalling or not), an infinity, or ± m × 2^e. -/
inductive FV where
  | nan (signalling : Bool)
  | inf (neg : Bool)
  | fin (neg : Bool) (m : Nat) (e : Int)
  deriving DecidableEq, Repr

/-- How one exact value is rounded (R60, R62, R69). -/
inductive Rnd where
  | rne | zero | up | down
  /-- stochastic, with the random word of the element -/
  | sr (r : Word)
  deriving DecidableEq, Repr

/-- A binary format: fraction bits, exponent of one step of a subnormal, largest finite magnitude as bits, width,
first magnitude that is an infinity (none when the format has none) and first that is a NaN. -/
structure FpFmt where
  man : Nat
  qmin : Int
  maxBits : Nat
  width : Nat
  infBits : Option Nat
  nanBits : Nat
  deriving DecidableEq, Repr

/-- R47. -/
def fp32 : FpFmt := ⟨23, -149, 0x7F7FFFFF, 32, some 0x7F800000, 0x7F800001⟩
def bf16 : FpFmt := ⟨7, -133, 0x7F7F, 16, some 0x7F80, 0x7F81⟩
def fp16 : FpFmt := ⟨10, -24, 0x7BFF, 16, some 0x7C00, 0x7C01⟩
def e5m2 : FpFmt := ⟨2, -16, 0x7B, 8, some 0x7C, 0x7D⟩
def e4m3 : FpFmt := ⟨3, -9, 0x7E, 8, none, 0x7F⟩
def e3m2 : FpFmt := ⟨2, -4, 0x1F, 6, none, 0x20⟩
def e2m3 : FpFmt := ⟨3, -3, 0x1F, 6, none, 0x20⟩
def e2m1 : FpFmt := ⟨1, -1, 0x7, 4, none, 0x8⟩

/-- Exponent of the smallest normal value. -/
def FpFmt.emin (f : FpFmt) : Int := f.qmin + f.man

/-- The value of a bit pattern (R47). A NaN is signalling when the top fraction bit is 0 (IEEE 754-2019). -/
def unpack (f : FpFmt) (v : Nat) : FV :=
  let neg := v.testBit (f.width - 1)
  let mag := v % 2 ^ (f.width - 1)
  if f.infBits = some mag then .inf neg
  else if f.nanBits ≤ mag then .nan (!mag.testBit (f.man - 1))
  else
    let e := mag / 2 ^ f.man
    let m := mag % 2 ^ f.man
    if e = 0 then .fin neg m f.qmin else .fin neg (2 ^ f.man + m) (f.qmin + (e - 1 : Nat))

/-- Whether the part below the grid moves a magnitude up, of a value with `lo` steps and `rem / 2^sh` of a step. -/
def roundsUp (r : Rnd) (neg : Bool) (lo rem sh : Nat) : Bool :=
  match r with
  | .rne => 2 ^ sh < 2 * rem || (2 * rem == 2 ^ sh && lo % 2 == 1)
  | .zero => false
  | .up => !neg && rem != 0
  | .down => neg && rem != 0
  | .sr w => w.toNat < rem * 2 ^ 32 / 2 ^ sh

/-- m × 2^e in steps of 2^q: the steps and whether the value was off the grid. -/
def toGrid (r : Rnd) (neg : Bool) (m : Nat) (e q : Int) : Nat × Bool :=
  if q ≤ e then (m * 2 ^ (e - q).toNat, false)
  else
    let sh := (q - e).toNat
    let lo := m / 2 ^ sh
    let rem := m % 2 ^ sh
    (if roundsUp r neg lo rem sh then lo + 1 else lo, rem != 0)

/-- Exponent of the leading bit of m × 2^e. -/
def lead (m : Nat) (e : Int) : Int := (Nat.log2 m : Int) + e

/-- A magnitude rounded to a format with no upper bound: its bits (beyond `maxBits` on overflow), and whether it is
inexact and tiny (R472). -/
def roundMag (f : FpFmt) (r : Rnd) (neg : Bool) (m : Nat) (e : Int) : Nat × Bool × Bool :=
  if m = 0 then (0, false, false)
  else
    let q := max (lead m e - f.man) f.qmin
    let g := toGrid r neg m e q
    let u := toGrid r neg m e (lead m e - f.man)
    let tiny := lead u.1 (lead m e - f.man) < f.emin
    (g.1 + (q - f.qmin).toNat * 2 ^ f.man, g.2, tiny)

def signBits (f : FpFmt) (neg : Bool) (mag : Nat) : Nat := if neg then 2 ^ (f.width - 1) + mag else mag

/-- Result of a rounding to a format with infinities as IEEE 754-2019 gives it (R56, R65, R476), with its flags. -/
def packIeee (f : FpFmt) (r : Rnd) (neg : Bool) (m : Nat) (e : Int) : Nat × Nat :=
  let (b, ix, tiny) := roundMag f r neg m e
  if f.maxBits < b then
    let toMax := match r with
      | .zero => true
      | .up => neg
      | .down => !neg
      | _ => false
    (signBits f neg (if toMax then f.maxBits else f.maxBits + 1), AF.OF)
  else (signBits f neg b, if ix && tiny then AF.UF else 0)

/-- The canonical NaN of FP32, BF16 and FP16: quiet, the fraction's top bit alone (R60, R67). -/
def qnan (f : FpFmt) : Nat := f.maxBits + 1 + 2 ^ (f.man - 1)

/-- A value written in an IEEE format. -/
def pack (f : FpFmt) (r : Rnd) : FV → Nat × Nat
  | .nan _ => (qnan f, 0)
  | .inf neg => (signBits f neg (f.maxBits + 1), 0)
  | .fin neg m e => packIeee f r neg m e

/-- Signed mantissas of two finite values at their common exponent. -/
def align (m : Nat) (e : Int) (k : Int) : Nat := m * 2 ^ (e - k).toNat

def sMant (neg : Bool) (m : Nat) : Int := if neg then -(m : Int) else m

/-- Exact sum of two finite values; an exact zero takes the common sign, else + (IEEE 754-2019, RNE). -/
def addFin (n1 : Bool) (m1 : Nat) (e1 : Int) (n2 : Bool) (m2 : Nat) (e2 : Int) : FV :=
  let k := min e1 e2
  let v := sMant n1 (align m1 e1 k) + sMant n2 (align m2 e2 k)
  if v = 0 then .fin (n1 && n2) 0 0 else .fin (v < 0) v.natAbs k

/-- Exact sum, with the invalid flag of ∞ − ∞. -/
def fvAdd : FV → FV → FV × Nat
  | .nan _, _ => (.nan false, 0)
  | _, .nan _ => (.nan false, 0)
  | .inf a, .inf b => if a = b then (.inf a, 0) else (.nan false, AF.NV)
  | .inf a, .fin .. => (.inf a, 0)
  | .fin .., .inf b => (.inf b, 0)
  | .fin n1 m1 e1, .fin n2 m2 e2 => (addFin n1 m1 e1 n2 m2 e2, 0)

/-- Exact product, with the invalid flag of ∞ × 0. -/
def fvMul : FV → FV → FV × Nat
  | .nan _, _ => (.nan false, 0)
  | _, .nan _ => (.nan false, 0)
  | .inf a, .inf b => (.inf (a != b), 0)
  | .inf a, .fin n m _ => if m = 0 then (.nan false, AF.NV) else (.inf (a != n), 0)
  | .fin n m _, .inf b => if m = 0 then (.nan false, AF.NV) else (.inf (n != b), 0)
  | .fin n1 m1 e1, .fin n2 m2 e2 => (.fin (n1 != n2) (m1 * m2) (e1 + e2), 0)

def FV.neg : FV → FV
  | .nan s => .nan s
  | .inf n => .inf (!n)
  | .fin n m e => .fin (!n) m e

def FV.isNan : FV → Bool
  | .nan _ => true
  | _ => false

/-- AF_NV for a signalling NaN operand (R67). -/
def FV.nv : FV → Nat
  | .nan true => AF.NV
  | _ => 0

/-- Bits and flags of a computed value rounded once, with the invalid flags met on the way. -/
def finish (f : FpFmt) (x : FV × Nat) (nv : Nat) : Nat × Nat :=
  let p := pack f .rne x.1
  (p.1, p.2 ||| x.2 ||| nv)

def fAdd (f : FpFmt) (a b : Nat) : Nat × Nat :=
  let x := unpack f a
  let y := unpack f b
  finish f (fvAdd x y) (x.nv ||| y.nv)

def fSub (f : FpFmt) (a b : Nat) : Nat × Nat :=
  let x := unpack f a
  let y := unpack f b
  finish f (fvAdd x y.neg) (x.nv ||| y.nv)

def fMul (f : FpFmt) (a b : Nat) : Nat × Nat :=
  let x := unpack f a
  let y := unpack f b
  finish f (fvMul x y) (x.nv ||| y.nv)

/-- ±(a × b) + c, rounded once. Whether infinity times zero is invalid beside a quiet NaN is the implementation's (log entry
137). -/
def fFma (f : FpFmt) (negProd : Bool) (a b c : Nat) : Nat × Nat :=
  let x := unpack f a
  let y := unpack f b
  let z := unpack f c
  let p := fvMul x y
  let q := if negProd then p.1.neg else p.1
  let r := fvAdd q z
  let inv := if z = .nan false ∧ !Config.fmaQuietInvalid then 0 else p.2
  finish f (r.1, r.2 ||| inv) (x.nv ||| y.nv ||| z.nv)

/-- A quotient of magnitudes with a sticky lowest bit. -/
def quot (m1 m2 : Nat) : Nat × Int :=
  let k := 80 + Nat.log2 m2
  let n := m1 * 2 ^ k
  (2 * (n / m2) + b2n (n % m2 != 0), -(k : Int) - 1)

/-- Division, correctly rounded (R65). -/
def fDiv (f : FpFmt) (a b : Nat) : Nat × Nat :=
  match unpack f a, unpack f b with
  | .nan s, y => (qnan f, (FV.nan s).nv ||| y.nv)
  | x, .nan s => (qnan f, x.nv ||| (FV.nan s).nv)
  | .inf _, .inf _ => (qnan f, AF.NV)
  | .inf n, .fin n2 _ _ => pack f .rne (.inf (n != n2))
  | .fin n _ _, .inf n2 => pack f .rne (.fin (n != n2) 0 0)
  | .fin n1 m1 e1, .fin n2 m2 e2 =>
    if m2 = 0 then
      if m1 = 0 then (qnan f, AF.NV) else (signBits f (n1 != n2) (f.maxBits + 1), AF.DZ)
    else
      let q := quot m1 m2
      pack f .rne (.fin (n1 != n2) q.1 (q.2 + e1 - e2))

/-- Integer square root, bit by bit from 2^k. -/
def isqrtGo (n r : Nat) : Nat → Nat
  | 0 => r
  | k + 1 =>
    let c := r + 2 ^ k
    isqrtGo n (if c * c ≤ n then c else r) k

def isqrt (n : Nat) : Nat := isqrtGo n 0 (Nat.log2 n / 2 + 1)

/-- Square root, correctly rounded (R65). -/
def fSqrt (f : FpFmt) (a : Nat) : Nat × Nat :=
  match unpack f a with
  | .nan s => (qnan f, (FV.nan s).nv)
  | .inf true => (qnan f, AF.NV)
  | .inf false => (a, 0)
  | .fin n m e =>
    if m = 0 then (a, 0)
    else if n then (qnan f, AF.NV)
    else
      let odd := e % 2 ≠ 0
      let m := (if odd then 2 * m else m) * 2 ^ 160
      let e := if odd then e - 1 else e
      let r := isqrt m
      pack f .rne (.fin false (2 * r + b2n (r * r != m)) (e / 2 - 81))

/-- Order of two values that are not NaN: less, with −0 below +0 when `zeros`. -/
def fvLt (zeros : Bool) : FV → FV → Bool
  | .inf a, .inf b => a && !b
  | .inf a, .fin .. => a
  | .fin .., .inf b => !b
  | .fin n1 m1 e1, .fin n2 m2 e2 =>
    let k := min e1 e2
    let x := sMant n1 (align m1 e1 k)
    let y := sMant n2 (align m2 e2 k)
    x < y || (zeros && x == y && m1 == 0 && n1 && !n2)
  | _, _ => false

/-- Equality of values; NaN equals nothing. -/
def fvEq : FV → FV → Bool
  | .inf a, .inf b => a == b
  | .fin n1 m1 e1, .fin n2 m2 e2 =>
    let k := min e1 e2
    sMant n1 (align m1 e1 k) == sMant n2 (align m2 e2 k)
  | _, _ => false

/-- minimum, maximum, minimumNumber, maximumNumber of IEEE 754-2019 (R68); `mx` for a maximum, `num` for the
number forms. -/
def fMinMax (f : FpFmt) (mx num : Bool) (a b : Nat) : Nat × Nat :=
  let x := unpack f a
  let y := unpack f b
  let nv := x.nv ||| y.nv
  match x.isNan, y.isNan with
  | true, true => (qnan f, nv)
  | true, false => (if num then b else qnan f, nv)
  | false, true => (if num then a else qnan f, nv)
  | false, false => (if (if mx then fvLt true x y else fvLt true y x) then b else a, nv)

/-- FP32 value to int32 by a rounding, saturating, NaN to 0 (R69). -/
def toInt32 (r : Rnd) (a : Nat) : Nat × Nat :=
  match unpack fp32 a with
  | .nan _ => (0, AF.NV)
  | .inf n => (if n then 0x80000000 else 0x7FFFFFFF, AF.NV)
  | .fin n m e =>
    let v := sMant n (toGrid r n m e 0).1
    if v < -2147483648 then (0x80000000, AF.NV)
    else if 2147483647 < v then (0x7FFFFFFF, AF.NV)
    else ((BitVec.ofInt 32 v).toNat, 0)

/-- int32 to FP32 by a rounding (R285). -/
def fromInt32 (r : Rnd) (a : Word) : Nat × Nat := pack fp32 r (.fin (a.toInt < 0) a.toInt.natAbs 0)

end Sys2Proof.Machine
end

