-- ==== Sys2Proof/Machine/Formats.lean ====
section
/-!
DEFINITION. Element formats and block scales (R46–R51), the block sum of the arrays (R53–R56), output conversion
(R60, R61, R476), and the random word of stochastic rounding (R62, R64).
-/
namespace Sys2Proof.Machine

/-- Code 0x0–0x5 or 0x7: one byte per element, the 8-bit class (R52). -/
def is8bit (c : Nat) : Bool := c < 6 || c == 7
def isMx (c : Nat) : Bool := 2 ≤ c && c < 8
def is16bit (c : Nat) : Bool := c == 8 || c == 9

/-- Floating-point element format of a code; MXINT8 (0x7) and the reserved codes have none. -/
def fmtOf : Nat → Option FpFmt
  | 0 => some e4m3
  | 1 => some e5m2
  | 2 => some e4m3
  | 3 => some e5m2
  | 4 => some e3m2
  | 5 => some e2m3
  | 6 => some e2m1
  | 8 => some bf16
  | 9 => some fp16
  | 10 => some fp32
  | _ => none

/-- Bits of an element of a code. -/
def elemBits (c : Nat) : Nat :=
  if c = 6 then 4 else if is16bit c then 16 else if c = 10 then 32 else 8

/-- The value of an element's bits; MXFP6 ignores bits [7:6], MXINT8 is i × 2^−6 (R47, R48, R51). -/
def elemVal (c : Nat) (v : Nat) : FV :=
  match fmtOf c with
  | some f => unpack f (v % 2 ^ f.width)
  | none =>
    let i := sgn v 8
    .fin (i < 0) i.natAbs (-6)

/-- Elements packed in bytes, element 0 lowest (R49). -/
def unpackElems (c : Nat) (b : Bytes) : List Nat :=
  match elemBits c with
  | 4 => b.flatMap fun x => [x.toNat % 16, x.toNat / 16]
  | 16 => (List.range (b.length / 2)).map fun i => leAt b (2 * i) 2
  | 32 => (List.range (b.length / 4)).map fun i => leAt b (4 * i) 4
  | _ => b.map (·.toNat)

def packNibbles : List Nat → Bytes
  | a :: b :: r => BitVec.ofNat 8 (a % 16 + 16 * b) :: packNibbles r
  | [a] => [BitVec.ofNat 8 (a % 16)]
  | [] => []

/-- Elements packed into bytes (R49). -/
def packElems (c : Nat) (l : List Nat) : Bytes :=
  match elemBits c with
  | 4 => packNibbles l
  | 16 => l.flatMap fun v => leBytes v 2
  | 32 => l.flatMap fun v => leBytes v 4
  | _ => l.map (BitVec.ofNat 8)

/-! ### The block sum -/

/-- Value of one block from its 32 element pairs and its two scale bytes (R53, R55). -/
def blockValue (a w : List FV) (xa xw : Nat) : FV × Nat :=
  if xa = 255 ∨ xw = 255 ∨ a.any FV.isNan ∨ w.any FV.isNan then (.nan false, 0)
  else
    let ps := (a.zip w).map fun p => fvMul p.1 p.2
    if ps.any (fun p => p.1.isNan) then (.nan false, AF.ANAN)
    else
      let pos := ps.any fun p => p.1 == .inf false
      let neg := ps.any fun p => p.1 == .inf true
      if pos && neg then (.nan false, AF.ANAN)
      else if pos then (.inf false, 0)
      else if neg then (.inf true, 0)
      else
        match ps.foldl (fun (s : FV) p => (fvAdd s p.1).1) (.fin false 0 0) with
        | .fin n m e => (.fin n m (e + xa - 127 + (xw - 127)), 0)
        | x => (x, 0)

/-- The accumulator after a block; none stands for the absent contents of a starting stream (R54, R56). -/
def accumulate (acc : Option Nat) (v : FV) : Nat × Nat :=
  let a : FV := match acc with
    | some b => unpack fp32 b
    | none => .fin false 0 0
  match a, v with
  | .nan _, _ => (qnan fp32, 0)
  | _, .nan _ => (qnan fp32, 0)
  | .inf x, .inf y => if x = y then pack fp32 .rne (.inf x) else (qnan fp32, AF.ANAN)
  | .inf x, _ => pack fp32 .rne (.inf x)
  | _, .inf y => pack fp32 .rne (.inf y)
  | .fin n1 m1 e1, .fin n2 m2 e2 =>
    match addFin n1 m1 e1 n2 m2 e2 with
    | .fin n m e =>
      if m = 0 then (0, 0)
      else
        let p := pack fp32 .rne (.fin n m e)
        (p.1, if bitN p.2 2 then AF.AOF else 0)
    | x => pack fp32 .rne x

/-! ### Output conversion -/

/-- MXINT8 element of a finite value: steps of 2^−6, no −0, never 0x80 (R51, R60, R472). -/
def cvtInt8 (r : Rnd) (n : Bool) (m : Nat) (e : Int) : Nat × Nat :=
  let g := toGrid r n m e (-6)
  let tiny := m != 0 && lead m e < -6
  let sat := 127 < g.1
  let k := if sat then 127 else g.1
  ((if n then (256 - k) % 256 else k), (if sat then AF.SAT else 0) ||| (if g.2 && tiny then AF.UF else 0))

/-- A finite value to a saturating element format: FP8 and the MX elements (R60). -/
def cvtSat (f : FpFmt) (r : Rnd) (n : Bool) (m : Nat) (e : Int) : Nat × Nat :=
  let (b, ix, tiny) := roundMag f r n m e
  if f.maxBits < b then (signBits f n f.maxBits, AF.SAT)
  else (signBits f n b, if ix && tiny then AF.UF else 0)

/-- Largest finite element of a code with a sign, as bits. -/
def maxElem (c : Nat) (n : Bool) : Nat :=
  match fmtOf c with
  | some f => signBits f n f.maxBits
  | none => if n then 0x81 else 0x7F

/-- A finite value to an element of a code (R60). -/
def cvtFin (c : Nat) (r : Rnd) (n : Bool) (m : Nat) (e : Int) : Nat × Nat :=
  match fmtOf c with
  | none => cvtInt8 r n m e
  | some f => if 8 ≤ c then packIeee f r n m e else cvtSat f r n m e

/-- Output of one value to a format without a block scale: FP8, BF16, FP16, FP32 (R60). -/
def cvtPlain (c : Nat) (r : Rnd) (v : FV) : Nat × Nat :=
  match v with
  | .nan _ =>
    (match c with
      | 0 => 0x7F
      | 1 => 0x7E
      | 8 => 0x7FC0
      | 9 => 0x7E00
      | _ => 0x7FC00000, 0)
  | .inf n =>
    match c with
    | 0 => (0x7F, AF.NV)
    | 1 => (signBits e5m2 n 0x7C, 0)
    | 8 => pack bf16 r (.inf n)
    | 9 => pack fp16 r (.inf n)
    | _ => pack fp32 r (.inf n)
  | .fin n m e => cvtFin c r n m e

/-- vcvt with WID 0 of one lane (R286): an MX element is converted alone. -/
def cvtVector (c : Nat) (r : Rnd) (v : FV) : Nat × Nat :=
  let nv := v.nv
  let x := match c with
    | 2 => cvtPlain 0 r v
    | 3 => cvtPlain 1 r v
    | _ =>
      if isMx c then
        match v with
        | .nan _ => (0, AF.NV)
        | .inf n => (maxElem c n, AF.NV ||| AF.SAT)
        | .fin n m e => cvtFin c r n m e
      else cvtPlain c r v
  (x.1, x.2 ||| nv)

/-- Exponent of the largest finite value of an MX element format (R61). -/
def emaxOf : Nat → Int
  | 2 => 8
  | 3 => 15
  | 4 => 4
  | 5 => 2
  | 6 => 2
  | _ => 0

/-- Largest finite value of an MX element format as m × 2^e. -/
def maxVal (c : Nat) : Nat × Int :=
  match fmtOf c with
  | some f =>
    match unpack f f.maxBits with
    | .fin _ m e => (m, e)
    | _ => (0, 0)
  | none => (127, -6)

/-- |m1 × 2^e1| ≤ |m2 × 2^e2|. -/
def magLe (m1 : Nat) (e1 : Int) (m2 : Nat) (e2 : Int) : Bool :=
  let k := min e1 e2
  align m1 e1 k ≤ align m2 e2 k

/-- The scale exponent of a block of finite values: FLOOR or FIT (R61). -/
def mxExp (c : Nat) (fit : Bool) (vs : List FV) : Int :=
  let amax := vs.foldl (fun (b : Nat × Int) v =>
    match v with
    | .fin _ m e => if magLe m e b.1 b.2 then b else (m, e)
    | _ => b) (0, 0)
  if amax.1 = 0 then -127
  else
    let x := lead amax.1 amax.2 - emaxOf c
    let mv := maxVal c
    let x := if fit && !magLe amax.1 (amax.2 - x) mv.1 mv.2 then x + 1 else x
    min 127 (max (-127) x)

/-- One row of 32 FP32 values to an MX block: the elements, the scale byte and the flags; `rs` gives the rounding of
each element (R60, R61). -/
def cvtBlock (c : Nat) (fit : Bool) (rs : Nat → Rnd) (row : List Word) : List Nat × Byte × Nat :=
  let vs := row.map fun w => unpack fp32 w.toNat
  if vs.any (fun v => match v with | .fin .. => false | _ => true) then (row.map fun _ => 0, 0xFF, AF.MXNAN)
  else
    let x := mxExp c fit vs
    let es := vs.zipIdx.map fun p =>
      match p.1 with
      | .fin n m e => cvtFin c (rs p.2) n m (e - x)
      | _ => (0, 0)
    (es.map (·.1), BitVec.ofInt 8 (x + 127), es.foldl (fun f e => f ||| e.2) 0)

/-- An element of a code with its block scale, widened exactly to a value (R50). -/
def widen (c : Nat) (v scale : Nat) : FV :=
  if isMx c then
    if scale = 255 then .nan false
    else
      match elemVal c v with
      | .fin n m e => .fin n m (e + scale - 127)
      | x => x
  else elemVal c v

/-! ### Philox4x32-10 (R62; its constants are PRESUMED, log entry 5) -/

def mulHi (a b : Word) : Word := BitVec.ofNat 32 (a.toNat * b.toNat / 2 ^ 32)

def philoxGo (c0 c1 c2 c3 k0 k1 : Word) : Nat → Word × Word × Word × Word
  | 0 => (c0, c1, c2, c3)
  | n + 1 =>
    philoxGo (mulHi 0xCD9E8D57 c2 ^^^ c1 ^^^ k0) (0xCD9E8D57#32 * c2) (mulHi 0xD2511F53 c0 ^^^ c3 ^^^ k1)
      (0xD2511F53#32 * c0) (k0 + 0x9E3779B9#32) (k1 + 0xBB67AE85#32) n

/-- The random word of element index e of a tensor (R62). -/
def srWord (seed : BitVec 64) (span tensor : Word) (e : Nat) : Word :=
  let q := e / 4
  let r := philoxGo (BitVec.ofNat 32 q) (BitVec.ofNat 32 (q / 2 ^ 32 % 2 ^ 14)) tensor span
    (BitVec.ofNat 32 seed.toNat) (BitVec.ofNat 32 (seed.toNat / 2 ^ 32)) 10
  match e % 4 with
  | 0 => r.1
  | 1 => r.2.1
  | 2 => r.2.2.1
  | _ => r.2.2.2

end Sys2Proof.Machine
end

