-- ==== Sys2Proof/Machine/RegMap.lean ====
section
/-!
DEFINITION. The register map of the functions (R345–R347): the number of each register, its writable and
write-1-to-clear bits and its reset value, as the register tables of the chapters give them (R10–R14).
-/
namespace Sys2Proof.Machine

/-- What a register table gives of one register: masks of the bits of access rw, w1c and rwl, the reset value,
and whether it is an event counter (R14). -/
structure RegDef where
  rw : Word
  w1c : Word
  rwl : Word
  reset : Word
  counter : Bool
  deriving DecidableEq, Repr

/-- A register number: 2^24 × BAR + byte offset, BAR 0 of PF0 and f of VFf (R345). -/
abbrev RegNo := Nat

namespace Reg

abbrev ID_PART : Nat := 0x4
abbrev ID_DLSET : Nat := 0x8
abbrev ARITH_FLAGS : Nat := 0x140
abbrev ARITH_MASK : Nat := 0x144
abbrev ARITH_FIRST : Nat := 0x148
abbrev ARITH_SPAN : Nat := 0x14C
abbrev ARITH_FLAG_COUNT : Nat := 0x150
abbrev FELT_STATUS : Nat := 0x160
abbrev FELT_COLLIDE_COUNT : Nat := 0x164
abbrev FELT_EMPTY_COUNT : Nat := 0x168
abbrev FELT_DISCARD_COUNT : Nat := 0x16C
abbrev FELT_FIRST : Nat := 0x170
abbrev MESH_STATUS : Nat := 0x180
abbrev MESH_COLLIDE_COUNT : Nat := 0x184
abbrev MESH_CAP_COUNT : Nat := 0x188
abbrev MESH_RED_COUNT : Nat := 0x18C
abbrev MESH_FIRST : Nat := 0x190
abbrev MESH_VC2_MAX : Nat := 0x194
abbrev MESH_CTRL : Nat := 0x198
abbrev PULP_STATUS : Nat := 0x1A0
abbrev PULP_OVERRUN_COUNT : Nat := 0x1A4
abbrev PULP_OVR_CYC_LO : Nat := 0x1A8
abbrev PULP_OVR_CYC_HI : Nat := 0x1AC
abbrev PULP_STEAL_COUNT : Nat := 0x1B0
abbrev PULP_PHASE_COUNT : Nat := 0x1B4
abbrev PULP_FIRST : Nat := 0x1B8
abbrev PULP_CTRL : Nat := 0x1BC
abbrev PWR_CAP : Nat := 0x10000
abbrev PWR_STATUS : Nat := 0x10004
abbrev PWR_IN : Nat := 0x10008
abbrev PWR_AVG : Nat := 0x1000C
abbrev PWR_IDLE : Nat := 0x10010
abbrev PWR_CAP_COUNT : Nat := 0x10014
abbrev LL_CTRL : Nat := 0x10020
abbrev LL_BAND : Nat := 0x10024
abbrev LL_STATUS : Nat := 0x10028
abbrev LL_BREACH_COUNT : Nat := 0x1002C
abbrev LL_BALLAST_J_LO : Nat := 0x10030
abbrev LL_BALLAST_J_HI : Nat := 0x10034
abbrev THM_STATUS : Nat := 0x10080
abbrev THM_LIMITS : Nat := 0x10084
abbrev THM_DERATE_COUNT : Nat := 0x10088
abbrev CLK_OPSEL : Nat := 0x20000
abbrev CLK_STATUS : Nat := 0x20004
abbrev CLK_OPREQ : Nat := 0x20008
abbrev CLK_OP_COUNT : Nat := 0x2000C
abbrev CLK_STRETCH_LO : Nat := 0x20010
abbrev CLK_STRETCH_HI : Nat := 0x20014
abbrev CLK_STRETCH_SPAN : Nat := 0x20018
abbrev CLK_STRETCH_ORIGIN : Nat := 0x2001C
abbrev CLK_POLDER_STATE : Nat := 0x20020
abbrev CLK_NODE_SEL : Nat := 0x20030
abbrev CLK_DROOP_TH : Nat := 0x20034
abbrev CLK_FB_THRESH : Nat := 0x20040
abbrev CLK_FB_MARGIN : Nat := 0x20044
abbrev CLK_SLUICE_MON : Nat := 0x20050
abbrev CLK_SLIP_INFO : Nat := 0x20054
abbrev CLK_SLIP_COUNT : Nat := 0x20058
abbrev CLK_SHUTDROP_COUNT : Nat := 0x2005C
abbrev CLK_FBLOW_COUNT : Nat := 0x20060
abbrev MEM_HBM_TOTAL : Nat := 0x30000
abbrev MEM_HBM_RESERVED : Nat := 0x30004
abbrev MEM_HBM_FREE : Nat := 0x30008
abbrev MEM_HBM_FREE_1G : Nat := 0x3000C
abbrev MEM_RSV_FREE_LN : Nat := 0x30010
abbrev MEM_PSEL : Nat := 0x30020
abbrev MEM_P_HBM : Nat := 0x30024
abbrev MEM_P_RSV01 : Nat := 0x30028
abbrev MEM_P_RSV23 : Nat := 0x3002C
abbrev MEM_P_SAVE : Nat := 0x30030
abbrev MEM_STATUS : Nat := 0x30040
abbrev MEM_OFFWRITE_COUNT : Nat := 0x30044
abbrev MEM_OFFREAD_COUNT : Nat := 0x30048
abbrev MEM_RSVCONF_COUNT : Nat := 0x3004C
abbrev MEM_FIRST : Nat := 0x30050
abbrev MEM_XF_VA_LO : Nat := 0x30060
abbrev MEM_XF_VA_HI : Nat := 0x30064
abbrev MEM_XF_INFO : Nat := 0x30068
abbrev QUE_STATUS : Nat := 0x30100
abbrev QUE_MISS_COUNT : Nat := 0x30104
abbrev QUE_FALLBACK_COUNT : Nat := 0x30108
abbrev QUE_HALT_COUNT : Nat := 0x3010C
abbrev QUE_LAST_HALT : Nat := 0x30110
abbrev QUE_MISS_CYC_LO : Nat := 0x30118
abbrev QUE_MISS_CYC_HI : Nat := 0x3011C
abbrev PRE_STATUS : Nat := 0x40400
abbrev PRE_COUNT : Nat := 0x40404
abbrev PRE_LAST_SAVE : Nat := 0x40408
abbrev PRE_LAST_STOP : Nat := 0x4040C
abbrev PRG_REJECT : Nat := 0x40500
abbrev PRG_REJECT_LOC : Nat := 0x40504
abbrev TRN_WV_STATUS : Nat := 0x40600
abbrev TRN_WV_STALL_COUNT : Nat := 0x40604
abbrev TRN_WV_STALL_CYC_LO : Nat := 0x40608
abbrev TRN_WV_STALL_CYC_HI : Nat := 0x4060C
abbrev TRN_WV_FAULT_COUNT : Nat := 0x40610
abbrev HIF_IRQ_SEV : Nat := 0x40720
abbrev HIF_B4_SEL : Nat := 0x40730
abbrev HIF_B4_BASE : Nat := 0x40734
abbrev HIF_B4_FAULT_COUNT : Nat := 0x40738
abbrev LNK_CTRL : Nat := 0x50000
abbrev LNK_SHAPE : Nat := 0x50004
abbrev LNK_RANK : Nat := 0x50008
abbrev LNK_DTAG : Nat := 0x5000C
abbrev LNK_TIDE_CFG : Nat := 0x50010
abbrev LNK_STATUS : Nat := 0x50020
abbrev LNK_RETRY_COUNT : Nat := 0x50024
abbrev LNK_DOWN_COUNT : Nat := 0x50028
abbrev LNK_DEGR_COUNT : Nat := 0x5002C
abbrev LNK_TIDETO_COUNT : Nat := 0x50030
abbrev LNK_DROP_COUNT : Nat := 0x50034
abbrev LNK_TIDE_LAST : Nat := 0x50038
abbrev RED_TIMERS : Nat := 0x60000
abbrev RED_STATUS : Nat := 0x60004
abbrev RED_LATE_COUNT : Nat := 0x60008
abbrev RED_TIMEOUT_COUNT : Nat := 0x6000C
abbrev RED_DISCARD_COUNT : Nat := 0x60010
abbrev RED_DONE_COUNT : Nat := 0x60014
abbrev RED_WAIT_LO : Nat := 0x60018
abbrev RED_WAIT_HI : Nat := 0x6001C
abbrev RED_SEL : Nat := 0x60020
abbrev RED_REAM_STATE : Nat := 0x60024
abbrev RED_REAM_FILL : Nat := 0x60028
abbrev RED_DB_SEL : Nat := 0x60030
abbrev RED_DB_LO : Nat := 0x60034
abbrev RED_DB_HI : Nat := 0x60038
abbrev LOG_CTRL : Nat := 0x70000
abbrev LOG_STATUS : Nat := 0x70004
abbrev LOG_SEQ_NEXT_LO : Nat := 0x70008
abbrev LOG_SEQ_NEXT_HI : Nat := 0x7000C
abbrev LOG_DROP_COUNT : Nat := 0x70010
abbrev LOG_OVERWRITE_COUNT : Nat := 0x70014
abbrev LOG_SUPP_COUNT : Nat := 0x70018
abbrev LOG_CURSOR : Nat := 0x70020
abbrev LOG_RSEL : Nat := 0x70030
abbrev LOG_RATE : Nat := 0x70034
abbrev LOG_RSUPP : Nat := 0x70038
abbrev BOOT_STATUS : Nat := 0x80000
abbrev BOOT_TIME : Nat := 0x80004
abbrev BOOT_RESET : Nat := 0x80008
abbrev BOOT_FL_ADDR : Nat := 0x80020
abbrev BOOT_FL_CMD : Nat := 0x80024
abbrev BOOT_FL_STATUS : Nat := 0x80028
abbrev SEC_STATUS : Nat := 0x80100
abbrev SEC_SVN_CMD : Nat := 0x80104
abbrev SEC_ROM_VER : Nat := 0x80108
abbrev SEC_GRID : Nat := 0x8010C
abbrev SEC_ZERO_COUNT : Nat := 0x80110
abbrev SEC_SPDM : Nat := 0x80114
abbrev SEC_AUTHF_COUNT : Nat := 0x80118
abbrev ERR_STATUS : Nat := 0x90000
abbrev ERR_XLAT_COUNT : Nat := 0x90004
abbrev ERR_CE_COUNT : Nat := 0x90008
abbrev ERR_UE_COUNT : Nat := 0x9000C
abbrev ERR_CHECK_COUNT : Nat := 0x90010
abbrev RAS_FORCED_COUNT : Nat := 0x90014
abbrev RAS_DEFER_COUNT : Nat := 0x90018
abbrev ERR_FIRST_FATAL : Nat := 0x9001C
abbrev RAS_TAINT : Nat := 0x90020
abbrev RAS_RETIRED : Nat := 0x90024
abbrev RAS_REPAIR_SEL : Nat := 0x90030
abbrev RAS_REPAIR : Nat := 0x90034
abbrev RAS_MAINT_CTRL : Nat := 0x90040
abbrev RAS_MAINT_STATUS : Nat := 0x90044
abbrev RAS_TASK_SEL : Nat := 0x90050
abbrev RAS_TASK_CFG : Nat := 0x90054
abbrev RAS_TASK_AGE : Nat := 0x90058

/-- Queue register r of queue q of function f (R349). -/
def queue (f q r : Nat) : RegNo := if f = 0 then 0x40000 + 0x40 * q + r else 0x1000000 * f + 0x40 * q + r

/-- Function register r of function f (R365). -/
def fn (f r : Nat) : RegNo := if f = 0 then 0x40700 + r else 0x1000000 * f + 0x700 + r

/-- Doorbell register r of the page of function f (R346, R351). -/
def doorbell (f r : Nat) : RegNo := 0x100000 + 0x1000 * f + r

/-- Register r of link port k (R320). -/
def port (k r : Nat) : RegNo := 0x50100 + 0x40 * k + r

/-- PWR_RAIL_LIMk (R400). -/
def railLim (k : Nat) : RegNo := 0x10040 + 4 * k

/-- PWR_RAIL_MONk (R400). -/
def railMon (k : Nat) : RegNo := 0x10060 + 4 * k

/-- HIF_SLOTn (R365). -/
def hifSlot (n : Nat) : RegNo := 0x40710 + 4 * n

/-- GRID_SPAREk (R28). -/
def gridSpare (k : Nat) : RegNo := 0x100 + 4 * k

/-- The registers with a number of their own, part 1. -/
def defs1 : List (RegNo × RegDef) := [
  (ID_PART, ⟨0x0, 0x0, 0x0, 0xE7100B1, false⟩),
  (ID_DLSET, ⟨0x0, 0x0, 0x0, 0x1, false⟩),
  (ARITH_FLAGS, ⟨0x0, 0xFF, 0x0, 0x0, false⟩),
  (ARITH_MASK, ⟨0xFF, 0x0, 0x0, 0xF7, false⟩),
  (ARITH_FIRST, ⟨0x0, 0x0, 0x0, 0x0, false⟩),
  (ARITH_SPAN, ⟨0x0, 0x0, 0x0, 0x0, false⟩),
  (ARITH_FLAG_COUNT, ⟨0xFFFFFFFF, 0x0, 0x0, 0x0, true⟩),
  (FELT_STATUS, ⟨0x0, 0xF0, 0x0, 0x0, false⟩),
  (FELT_COLLIDE_COUNT, ⟨0xFFFFFFFF, 0x0, 0x0, 0x0, true⟩),
  (FELT_EMPTY_COUNT, ⟨0xFFFFFFFF, 0x0, 0x0, 0x0, true⟩),
  (FELT_DISCARD_COUNT, ⟨0xFFFFFFFF, 0x0, 0x0, 0x0, true⟩),
  (FELT_FIRST, ⟨0x0, 0x0, 0x0, 0x0, false⟩),
  (MESH_STATUS, ⟨0x0, 0x7, 0x0, 0x0, false⟩),
  (MESH_COLLIDE_COUNT, ⟨0xFFFFFFFF, 0x0, 0x0, 0x0, true⟩),
  (MESH_CAP_COUNT, ⟨0xFFFFFFFF, 0x0, 0x0, 0x0, true⟩),
  (MESH_RED_COUNT, ⟨0xFFFFFFFF, 0x0, 0x0, 0x0, true⟩),
  (MESH_FIRST, ⟨0x0, 0x0, 0x0, 0x0, false⟩),
  (MESH_VC2_MAX, ⟨0xFFFF, 0x0, 0x0, 0x0, false⟩),
  (MESH_CTRL, ⟨0x0, 0x0, 0xFF, 0x10, false⟩),
  (PULP_STATUS, ⟨0x0, 0xF, 0x0, 0x0, false⟩),
  (PULP_OVERRUN_COUNT, ⟨0xFFFFFFFF, 0x0, 0x0, 0x0, true⟩),
  (PULP_OVR_CYC_LO, ⟨0x0, 0x0, 0x0, 0x0, false⟩),
  (PULP_OVR_CYC_HI, ⟨0x0, 0x0, 0x0, 0x0, false⟩),
  (PULP_STEAL_COUNT, ⟨0xFFFFFFFF, 0x0, 0x0, 0x0, true⟩)]

/-- The registers with a number of their own, part 2. -/
def defs2 : List (RegNo × RegDef) := [
  (PULP_PHASE_COUNT, ⟨0xFFFFFFFF, 0x0, 0x0, 0x0, true⟩),
  (PULP_FIRST, ⟨0x0, 0x0, 0x0, 0x0, false⟩),
  (PULP_CTRL, ⟨0x1, 0x0, 0x0, 0x0, false⟩),
  (PWR_CAP, ⟨0xFFFFFFFF, 0x0, 0x0, 0x640898, false⟩),
  (PWR_STATUS, ⟨0x0, 0xF, 0x0, 0x0, false⟩),
  (PWR_IN, ⟨0x0, 0x0, 0x0, 0x0, false⟩),
  (PWR_AVG, ⟨0x0, 0x0, 0x0, 0x0, false⟩),
  (PWR_IDLE, ⟨0xFFFFFF, 0x0, 0x0, 0xBB8, false⟩),
  (PWR_CAP_COUNT, ⟨0xFFFFFFFF, 0x0, 0x0, 0x0, true⟩),
  (LL_CTRL, ⟨0x800007FF, 0x0, 0x0, 0xFA, false⟩),
  (LL_BAND, ⟨0xFFF0FFF, 0x0, 0x0, 0x7D005DC, false⟩),
  (LL_STATUS, ⟨0x0, 0x0, 0x0, 0x0, false⟩),
  (LL_BREACH_COUNT, ⟨0xFFFFFFFF, 0x0, 0x0, 0x0, true⟩),
  (LL_BALLAST_J_LO, ⟨0x0, 0x0, 0x0, 0x0, false⟩),
  (LL_BALLAST_J_HI, ⟨0x0, 0x0, 0x0, 0x0, false⟩),
  (THM_STATUS, ⟨0x0, 0x3, 0x0, 0x3FC0000, false⟩),
  (THM_LIMITS, ⟨0xFFFFFF, 0x0, 0x0, 0x5D6469, false⟩),
  (THM_DERATE_COUNT, ⟨0xFFFFFFFF, 0x0, 0x0, 0x0, true⟩),
  (CLK_OPSEL, ⟨0x10F, 0x0, 0x0, 0x100, false⟩),
  (CLK_STATUS, ⟨0x0, 0xF, 0x0, 0x0, false⟩),
  (CLK_OPREQ, ⟨0x0, 0x0, 0x0, 0x0, false⟩),
  (CLK_OP_COUNT, ⟨0xFFFFFFFF, 0x0, 0x0, 0x0, true⟩),
  (CLK_STRETCH_LO, ⟨0x0, 0x0, 0x0, 0x0, false⟩),
  (CLK_STRETCH_HI, ⟨0x0, 0x0, 0x0, 0x0, false⟩)]

/-- The registers with a number of their own, part 3. -/
def defs3 : List (RegNo × RegDef) := [
  (CLK_STRETCH_SPAN, ⟨0x0, 0x0, 0x0, 0x0, false⟩),
  (CLK_STRETCH_ORIGIN, ⟨0x0, 0x0, 0x0, 0x0, false⟩),
  (CLK_POLDER_STATE, ⟨0x0, 0x0, 0x0, 0xAAAAAAAA, false⟩),
  (CLK_NODE_SEL, ⟨0x1F, 0x0, 0x0, 0x0, false⟩),
  (CLK_DROOP_TH, ⟨0xFF, 0x0, 0x0, 0x0, false⟩),
  (CLK_FB_THRESH, ⟨0xFFFFFF, 0x0, 0x0, 0x0, false⟩),
  (CLK_FB_MARGIN, ⟨0xFF00, 0x0, 0x0, 0xFFFF, false⟩),
  (CLK_SLUICE_MON, ⟨0x0, 0x0, 0x0, 0x66, false⟩),
  (CLK_SLIP_INFO, ⟨0x0, 0x0, 0x0, 0x0, false⟩),
  (CLK_SLIP_COUNT, ⟨0xFFFFFFFF, 0x0, 0x0, 0x0, true⟩),
  (CLK_SHUTDROP_COUNT, ⟨0xFFFFFFFF, 0x0, 0x0, 0x0, true⟩),
  (CLK_FBLOW_COUNT, ⟨0xFFFFFFFF, 0x0, 0x0, 0x0, true⟩),
  (MEM_HBM_TOTAL, ⟨0x0, 0x0, 0x0, 0xF0000, false⟩),
  (MEM_HBM_RESERVED, ⟨0x0, 0x0, 0x0, 0x0, false⟩),
  (MEM_HBM_FREE, ⟨0x0, 0x0, 0x0, 0xF0000, false⟩),
  (MEM_HBM_FREE_1G, ⟨0x0, 0x0, 0x0, 0x3C0, false⟩),
  (MEM_RSV_FREE_LN, ⟨0x0, 0x0, 0x0, 0x6000600, false⟩),
  (MEM_PSEL, ⟨0xF, 0x0, 0x0, 0x0, false⟩),
  (MEM_P_HBM, ⟨0x0, 0x0, 0x0, 0x0, false⟩),
  (MEM_P_RSV01, ⟨0x0, 0x0, 0x0, 0x0, false⟩),
  (MEM_P_RSV23, ⟨0x0, 0x0, 0x0, 0x0, false⟩),
  (MEM_P_SAVE, ⟨0x0, 0x0, 0x0, 0x0, false⟩),
  (MEM_STATUS, ⟨0x0, 0x7, 0x0, 0x0, false⟩),
  (MEM_OFFWRITE_COUNT, ⟨0xFFFFFFFF, 0x0, 0x0, 0x0, true⟩)]

/-- The registers with a number of their own, part 4. -/
def defs4 : List (RegNo × RegDef) := [
  (MEM_OFFREAD_COUNT, ⟨0xFFFFFFFF, 0x0, 0x0, 0x0, true⟩),
  (MEM_RSVCONF_COUNT, ⟨0xFFFFFFFF, 0x0, 0x0, 0x0, true⟩),
  (MEM_FIRST, ⟨0x0, 0x0, 0x0, 0x0, false⟩),
  (MEM_XF_VA_LO, ⟨0x0, 0x0, 0x0, 0x0, false⟩),
  (MEM_XF_VA_HI, ⟨0x0, 0x0, 0x0, 0x0, false⟩),
  (MEM_XF_INFO, ⟨0x0, 0x0, 0x0, 0x0, false⟩),
  (QUE_STATUS, ⟨0x0, 0x7, 0x0, 0x0, false⟩),
  (QUE_MISS_COUNT, ⟨0xFFFFFFFF, 0x0, 0x0, 0x0, true⟩),
  (QUE_FALLBACK_COUNT, ⟨0xFFFFFFFF, 0x0, 0x0, 0x0, true⟩),
  (QUE_HALT_COUNT, ⟨0xFFFFFFFF, 0x0, 0x0, 0x0, true⟩),
  (QUE_LAST_HALT, ⟨0x0, 0x0, 0x0, 0x0, false⟩),
  (QUE_MISS_CYC_LO, ⟨0x0, 0x0, 0x0, 0x0, false⟩),
  (QUE_MISS_CYC_HI, ⟨0x0, 0x0, 0x0, 0x0, false⟩),
  (PRE_STATUS, ⟨0x0, 0x0, 0x0, 0x0, false⟩),
  (PRE_COUNT, ⟨0xFFFFFFFF, 0x0, 0x0, 0x0, true⟩),
  (PRE_LAST_SAVE, ⟨0x0, 0x0, 0x0, 0x0, false⟩),
  (PRE_LAST_STOP, ⟨0x0, 0x0, 0x0, 0x0, false⟩),
  (PRG_REJECT, ⟨0x0, 0x0, 0x0, 0x0, false⟩),
  (PRG_REJECT_LOC, ⟨0x0, 0x0, 0x0, 0x0, false⟩),
  (TRN_WV_STATUS, ⟨0x0, 0x40000000, 0x0, 0x0, false⟩),
  (TRN_WV_STALL_COUNT, ⟨0xFFFFFFFF, 0x0, 0x0, 0x0, true⟩),
  (TRN_WV_STALL_CYC_LO, ⟨0x0, 0x0, 0x0, 0x0, false⟩),
  (TRN_WV_STALL_CYC_HI, ⟨0x0, 0x0, 0x0, 0x0, false⟩),
  (TRN_WV_FAULT_COUNT, ⟨0xFFFFFFFF, 0x0, 0x0, 0x0, true⟩)]

/-- The registers with a number of their own, part 5. -/
def defs5 : List (RegNo × RegDef) := [
  (HIF_IRQ_SEV, ⟨0x3, 0x0, 0x0, 0x2, false⟩),
  (HIF_B4_SEL, ⟨0x1F, 0x0, 0x0, 0x0, false⟩),
  (HIF_B4_BASE, ⟨0xFFF, 0x0, 0x0, 0x0, false⟩),
  (HIF_B4_FAULT_COUNT, ⟨0xFFFFFFFF, 0x0, 0x0, 0x0, true⟩),
  (LNK_CTRL, ⟨0x10FFF, 0x0, 0x0, 0x10FFF, false⟩),
  (LNK_SHAPE, ⟨0x80000FFF, 0x0, 0x0, 0x0, false⟩),
  (LNK_RANK, ⟨0x3FF, 0x0, 0x0, 0x0, false⟩),
  (LNK_DTAG, ⟨0xFFFFFFFF, 0x0, 0x0, 0x0, false⟩),
  (LNK_TIDE_CFG, ⟨0xFFFFFFFF, 0x0, 0x0, 0xFA0064, false⟩),
  (LNK_STATUS, ⟨0x0, 0xF, 0x0, 0x0, false⟩),
  (LNK_RETRY_COUNT, ⟨0xFFFFFFFF, 0x0, 0x0, 0x0, true⟩),
  (LNK_DOWN_COUNT, ⟨0xFFFFFFFF, 0x0, 0x0, 0x0, true⟩),
  (LNK_DEGR_COUNT, ⟨0xFFFFFFFF, 0x0, 0x0, 0x0, true⟩),
  (LNK_TIDETO_COUNT, ⟨0xFFFFFFFF, 0x0, 0x0, 0x0, true⟩),
  (LNK_DROP_COUNT, ⟨0xFFFFFFFF, 0x0, 0x0, 0x0, true⟩),
  (LNK_TIDE_LAST, ⟨0x0, 0x0, 0x0, 0x0, false⟩),
  (RED_TIMERS, ⟨0xFFFFFFFF, 0x0, 0x0, 0xC80064, false⟩),
  (RED_STATUS, ⟨0x0, 0xF, 0x0, 0x0, false⟩),
  (RED_LATE_COUNT, ⟨0xFFFFFFFF, 0x0, 0x0, 0x0, true⟩),
  (RED_TIMEOUT_COUNT, ⟨0xFFFFFFFF, 0x0, 0x0, 0x0, true⟩),
  (RED_DISCARD_COUNT, ⟨0xFFFFFFFF, 0x0, 0x0, 0x0, true⟩),
  (RED_DONE_COUNT, ⟨0xFFFFFFFF, 0x0, 0x0, 0x0, true⟩),
  (RED_WAIT_LO, ⟨0x0, 0x0, 0x0, 0x0, false⟩),
  (RED_WAIT_HI, ⟨0x0, 0x0, 0x0, 0x0, false⟩)]

/-- The registers with a number of their own, part 6. -/
def defs6 : List (RegNo × RegDef) := [
  (RED_SEL, ⟨0xF0000FFF, 0x0, 0x0, 0x0, false⟩),
  (RED_REAM_STATE, ⟨0x0, 0x0, 0x0, 0x7FF, false⟩),
  (RED_REAM_FILL, ⟨0x0, 0x0, 0x0, 0x0, false⟩),
  (RED_DB_SEL, ⟨0x3F, 0x0, 0x0, 0x0, false⟩),
  (RED_DB_LO, ⟨0x0, 0x0, 0x0, 0x0, false⟩),
  (RED_DB_HI, ⟨0x0, 0x0, 0x0, 0x0, false⟩),
  (LOG_CTRL, ⟨0x0, 0x0, 0x0, 0x0, false⟩),
  (LOG_STATUS, ⟨0x0, 0x7, 0x0, 0x0, false⟩),
  (LOG_SEQ_NEXT_LO, ⟨0x0, 0x0, 0x0, 0x1, false⟩),
  (LOG_SEQ_NEXT_HI, ⟨0x0, 0x0, 0x0, 0x0, false⟩),
  (LOG_DROP_COUNT, ⟨0xFFFFFFFF, 0x0, 0x0, 0x0, true⟩),
  (LOG_OVERWRITE_COUNT, ⟨0xFFFFFFFF, 0x0, 0x0, 0x0, true⟩),
  (LOG_SUPP_COUNT, ⟨0xFFFFFFFF, 0x0, 0x0, 0x0, true⟩),
  (LOG_CURSOR, ⟨0x1FFF, 0x0, 0x0, 0x0, false⟩),
  (LOG_RSEL, ⟨0xFFFF, 0x0, 0x0, 0x101, false⟩),
  (LOG_RATE, ⟨0xFFFF00FF, 0x0, 0x0, 0x0, false⟩),
  (LOG_RSUPP, ⟨0x0, 0x0, 0x0, 0x0, false⟩),
  (BOOT_STATUS, ⟨0x0, 0x0, 0x0, 0x0, false⟩),
  (BOOT_TIME, ⟨0x0, 0x0, 0x0, 0x0, false⟩),
  (BOOT_RESET, ⟨0x0, 0x0, 0x0, 0x0, false⟩),
  (BOOT_FL_ADDR, ⟨0x3FFFFFF, 0x0, 0x0, 0x0, false⟩),
  (BOOT_FL_CMD, ⟨0x0, 0x0, 0x0, 0x0, false⟩),
  (BOOT_FL_STATUS, ⟨0x0, 0xF0, 0x0, 0x0, false⟩),
  (SEC_STATUS, ⟨0x0, 0x1, 0x0, 0x0, false⟩)]

/-- The registers with a number of their own, part 7. -/
def defs7 : List (RegNo × RegDef) := [
  (SEC_SVN_CMD, ⟨0x0, 0x0, 0x0, 0x0, false⟩),
  (SEC_ROM_VER, ⟨0x0, 0x0, 0x0, 0x0, false⟩),
  (SEC_GRID, ⟨0x0, 0x0, 0x0, 0xF, false⟩),
  (SEC_ZERO_COUNT, ⟨0xFFFFFFFF, 0x0, 0x0, 0x0, true⟩),
  (SEC_SPDM, ⟨0x0, 0x0, 0x0, 0x0, false⟩),
  (SEC_AUTHF_COUNT, ⟨0xFFFFFFFF, 0x0, 0x0, 0x0, true⟩),
  (ERR_STATUS, ⟨0x0, 0x7F, 0x0, 0x0, false⟩),
  (ERR_XLAT_COUNT, ⟨0xFFFFFFFF, 0x0, 0x0, 0x0, true⟩),
  (ERR_CE_COUNT, ⟨0xFFFFFFFF, 0x0, 0x0, 0x0, true⟩),
  (ERR_UE_COUNT, ⟨0xFFFFFFFF, 0x0, 0x0, 0x0, true⟩),
  (ERR_CHECK_COUNT, ⟨0xFFFFFFFF, 0x0, 0x0, 0x0, true⟩),
  (RAS_FORCED_COUNT, ⟨0xFFFFFFFF, 0x0, 0x0, 0x0, true⟩),
  (RAS_DEFER_COUNT, ⟨0xFFFFFFFF, 0x0, 0x0, 0x0, true⟩),
  (ERR_FIRST_FATAL, ⟨0x0, 0x0, 0x0, 0x0, false⟩),
  (RAS_TAINT, ⟨0x0, 0x0, 0x0, 0x0, false⟩),
  (RAS_RETIRED, ⟨0x0, 0x0, 0x0, 0x0, false⟩),
  (RAS_REPAIR_SEL, ⟨0x3FFF, 0x0, 0x0, 0x0, false⟩),
  (RAS_REPAIR, ⟨0x0, 0x0, 0x0, 0x0, false⟩),
  (RAS_MAINT_CTRL, ⟨0xFFFF003F, 0x0, 0x0, 0x640000, false⟩),
  (RAS_MAINT_STATUS, ⟨0x0, 0x0, 0x0, 0x0, false⟩),
  (RAS_TASK_SEL, ⟨0x7, 0x0, 0x0, 0x0, false⟩),
  (RAS_TASK_CFG, ⟨0xFFFFFFFF, 0x0, 0x0, 0x0, false⟩),
  (RAS_TASK_AGE, ⟨0x0, 0x0, 0x0, 0x0, false⟩)]

/-- The registers with a number of their own, in the order of their numbers. -/
def defs : List (RegNo × RegDef) := defs1 ++ defs2 ++ defs3 ++ defs4 ++ defs5 ++ defs6 ++ defs7

/-- Registers of a queue pair by their offset (R349). -/
def queueDefs : List (Nat × RegDef) := [
  (0x00, ⟨0xFFFFF000, 0, 0, 0, false⟩), (0x04, ⟨0xFFFFFFFF, 0, 0, 0, false⟩),
  (0x08, ⟨0xFFFFF000, 0, 0, 0, false⟩), (0x0C, ⟨0xFFFFFFFF, 0, 0, 0, false⟩),
  (0x10, ⟨0x800000FF, 0, 0, 0, false⟩), (0x14, ⟨0, 0, 0, 2, false⟩)]

/-- Registers of a link port by their offset (R320). -/
def portDefs : List (Nat × RegDef) := [
  (0x00, ⟨0, 0, 0, 0, false⟩), (0x04, ⟨0, 0, 0, 0, false⟩), (0x08, ⟨0x300, 0, 0, 0, false⟩),
  (0x0C, ⟨0xFFFFFFFF, 0, 0, 0, true⟩), (0x10, ⟨0xFFFFFFFF, 0, 0, 0, true⟩),
  (0x14, ⟨0xFFFFFFFF, 0, 0, 0, true⟩), (0x18, ⟨0xFFFFFFFF, 0, 0, 0, true⟩),
  (0x20, ⟨0xBFFFFFC7, 0, 0, 0, false⟩), (0x24, ⟨0xBFFFFFC7, 0, 0, 0, false⟩),
  (0x28, ⟨0xBFFFFFC7, 0, 0, 0, false⟩), (0x2C, ⟨0xBFFFFFC7, 0, 0, 0, false⟩),
  (0x30, ⟨0xBFFFFFC7, 0, 0, 0, false⟩), (0x34, ⟨0xBFFFFFC7, 0, 0, 0, false⟩),
  (0x38, ⟨0xBFFFFFC7, 0, 0, 0, false⟩), (0x3C, ⟨0xBFFFFFC7, 0, 0, 0, false⟩)]

/-- Registers of a function by their offset (R365); their reset values stand in `reset`. -/
def fnDefs : List (Nat × RegDef) := [
  (0x00, ⟨0, 7, 0, 0, false⟩), (0x04, ⟨0xFFFFFFFF, 0, 0, 0, true⟩), (0x08, ⟨0, 0, 0, 0, false⟩),
  (0x10, ⟨0, 0, 0, 0, false⟩), (0x14, ⟨0, 0, 0, 0, false⟩), (0x18, ⟨0, 0, 0, 0, false⟩), (0x1C, ⟨0, 0, 0, 0, false⟩)]

/-- First definition of an offset in a list. -/
def look : List (Nat × RegDef) → Nat → Option RegDef
  | [], _ => none
  | (k, d) :: r, o => if k = o then some d else look r o

/-- VL_MAX of rail k in A (R385); VL_LIM is set to it when no preset sets it (R400). -/
def railMax : Nat → Nat
  | 0 => 1920
  | 1 => 260
  | 2 => 400
  | 3 => 150
  | _ => 14

/-- What the tables give of a register number, if a register stands there (R9). -/
def info (n : RegNo) : Option RegDef :=
  let o := n % 0x1000000
  let f := n / 0x1000000
  if f = 0 then
    if o < 0x40400 ∧ 0x40000 ≤ o then look queueDefs ((o - 0x40000) % 0x40)
    else if 0x40700 ≤ o ∧ o < 0x40720 then look fnDefs (o - 0x40700)
    else if 0x50100 ≤ o ∧ o < 0x50400 then look portDefs ((o - 0x50100) % 0x40)
    else if 0x100000 ≤ o ∧ o < 0x109000 then
      if o % 0x1000 < 0x80 ∧ o % 4 = 0 then some ⟨0xFFF, 0, 0, 0, false⟩ else none
    else if 0x10040 ≤ o ∧ o < 0x10054 ∧ o % 4 = 0 then
      let m := railMax ((o - 0x10040) / 4)
      some ⟨0xFFFF, 0, 0, BitVec.ofNat 32 (m * 65536 + m), false⟩
    else if 0x10060 ≤ o ∧ o < 0x10074 ∧ o % 4 = 0 then some ⟨0, 0, 0, 0, false⟩
    else look defs o
  else
    if o < 0x400 then look queueDefs (o % 0x40)
    else if 0x700 ≤ o ∧ o < 0x720 then look fnDefs (o - 0x700)
    else none

/-- Reset value of a register (R11). -/
def reset (n : RegNo) : Word :=
  match info n with
  | some d => d.reset
  | none => 0

/-- The low words of the 64-bit pairs read as R8 states, the ring bases of the queues apart; the high word follows
at +4. -/
def pairs : List RegNo :=
  [TRN_WV_STALL_CYC_LO, MEM_XF_VA_LO, QUE_MISS_CYC_LO, PULP_OVR_CYC_LO, CLK_STRETCH_LO, RED_WAIT_LO, RED_DB_LO,
   LL_BALLAST_J_LO, LOG_SEQ_NEXT_LO]

/-- The low word of a 64-bit pair (R8): a pair of the list, or a ring base of a queue of a function (R349). -/
def isPair (n : RegNo) : Bool :=
  pairs.contains n ||
    ((decide (0x40000 ≤ n ∧ n < 0x40400) || decide (0x1000000 ≤ n ∧ n < 0x9000000 ∧ n % 0x1000000 < 0x400)) &&
      (n % 0x40 == 0 || n % 0x40 == 8))

end Reg

end Sys2Proof.Machine
end

