-- ==== Sys2Proof/Machine/Table.lean ====
section
/-!
DEFINITION. Sparse tables by number in one canonical form: keys strictly rising, no entry equal to the default.
Every memory, register bank and per-unit record of the state is one of these.
-/
namespace Sys2Proof.Machine

variable {α : Type}

/-- The value at a key: the first entry of that key, else the default. -/
def tget (d : α) : Tbl α → Nat → α
  | [], _ => d
  | (k', v) :: r, k => if k' = k then v else tget d r k

/-- The entry at a key, if one is listed. -/
def tfind : Tbl α → Nat → Option α
  | [], _ => none
  | (k', v) :: r, k => if k' = k then some v else tfind r k

/-- The table with an entry for the key, in its place in the order of keys. -/
def tput : Tbl α → Nat → α → Tbl α
  | [], k, v => [(k, v)]
  | (k', v') :: r, k, v =>
    if k < k' then (k, v) :: (k', v') :: r
    else if k' = k then (k, v) :: r
    else (k', v') :: tput r k v

/-- The table without any entry of the key. -/
def tdel : Tbl α → Nat → Tbl α
  | [], _ => []
  | (k', v) :: r, k => if k' = k then tdel r k else (k', v) :: tdel r k

/-- The table holding a value at a key, in canonical form: the default is not listed. -/
def tset [DecidableEq α] (d : α) (t : Tbl α) (k : Nat) (v : α) : Tbl α :=
  if v = d then tdel t k else tput t k v

/-- The table with the value at a key changed by a function. -/
def tmod [DecidableEq α] (d : α) (t : Tbl α) (k : Nat) (f : α → α) : Tbl α :=
  tset d t k (f (tget d t k))

/-- Keys strictly rising. -/
def tsorted : Tbl α → Bool
  | [] => true
  | [_] => true
  | (k, _) :: (k', v') :: r => decide (k < k') && tsorted ((k', v') :: r)

/-- The canonical form: keys strictly rising and no entry equal to the default. -/
def twf [DecidableEq α] (d : α) (t : Tbl α) : Bool :=
  tsorted t && t.all (fun e => decide (e.2 ≠ d))

/-! ### Bytes of a memory -/

/-- The byte at an address; an unlisted address reads as 0 (log entry 1). -/
def mget (m : Mem) (a : Nat) : Byte := tget 0 m a

/-- The entries of a range, with keys counted from its start. -/
def tregion {α : Type} (t : Tbl α) (lo n : Nat) : Tbl α :=
  (t.filter fun e => decide (lo ≤ e.1) && decide (e.1 < lo + n)).map fun e => (e.1 - lo, e.2)

/-- A table without the keys of a range. -/
def dropRange {α : Type} (t : Tbl α) (lo n : Nat) : Tbl α := t.filter fun e => !(decide (lo ≤ e.1) && decide (e.1 < lo + n))

/-- A memory with one byte written, in canonical form. -/
def mset (m : Mem) (a : Nat) (b : Byte) : Mem := tset 0 m a b

/-- n bytes from an address, lowest address first. -/
def mread (m : Mem) (a : Nat) : Nat → Bytes
  | 0 => []
  | n + 1 => mget m a :: mread m (a + 1) n

/-- A memory with bytes written from an address on. -/
def mwrite (m : Mem) (a : Nat) : Bytes → Mem
  | [] => m
  | b :: r => mwrite (mset m a b) (a + 1) r

/-- The canonical form of a memory. -/
def Memory.wf (m : Mem) : Bool := twf 0 m

/-- A list of bytes by address as a memory in canonical form; of two bytes at one address the later one stands. -/
def Memory.norm (m : Mem) : Mem := if Memory.wf m then m else m.foldl (fun r e => mset r e.1 e.2) []

end Sys2Proof.Machine
end

