-- ==== Sys2Proof/Machine/Types.lean ====
section
/-!
DEFINITION. The records State is made of, one structure for each thing the spec describes: a tile, a stream,
a descriptor in a queue, a flit, a port, a ream, a program slot. Plain data only.
-/
namespace Sys2Proof.Machine

/-! ### Tile -/

/-- What the control core of a tile is doing (R243–R252). -/
inductive CoreState where
  /-- issuing bundles -/
  | running
  /-- in a delay until a cycle (R247) -/
  | delayed (till : Nat)
  /-- stands in wait.q on a tag, status to a register, issued in a cycle -/
  | waitTag (tag : TagNo) (rd : GReg) (since : Nat)
  /-- stands in wait.qall -/
  | waitAll (since : Nat)
  /-- stands in wait.cyc for a span cycle; C − t goes to a register -/
  | waitCyc (target : Nat) (rd : GReg) (since : Nat)
  /-- arrived at the tide in a cycle, naming a span record -/
  | arrived (span since : Nat)
  /-- the tile's program has ended -/
  | ended
  deriving DecidableEq, Repr

/-- One hardware loop (R245). -/
structure Loop where
  active : Bool := false
  start : Nat := 0
  stop : Nat := 0
  passes : Nat := 0
  deriving DecidableEq, Repr

/-- One Couch epilogue entry: the 64 descriptor bytes, and s_j then c_j of per-column E1 (R281). -/
structure CouchEntry where
  desc : Bytes
  cols : Bytes
  deriving DecidableEq, Repr

/-- The power state of an array or of a tile-store bank (R44, R127). -/
inductive Pwr where
  | on
  | ret
  | off
  /-- entering a state, complete in a cycle -/
  | entering (ret : Bool) (atCycle : Nat)
  /-- leaving RET or OFF, complete in a cycle -/
  | exiting (atCycle : Nat)
  deriving DecidableEq, Repr

/-- A tile-store bank (R127–R129). -/
structure Bank where
  pwr : Pwr := .on
  /-- closed since a cycle: from the issue of a ts.bank to RET or OFF until it is ON again -/
  closedAt : Option Nat := none
  /-- the ts.bank not yet completed: its target, its tag and its number -/
  req : Option (BankTarget × TagNo × Nat) := none
  deriving DecidableEq, Repr

/-- A stream of an array from its issue until it is committed to its set (R274), with the contents that the operand
buffers of its two feeders, 256 entries of 32 bytes each, and their scale buffers of 256 bytes hold for it (R34). A
block leaves the buffers when it is rounded in every cell. -/
structure Stream where
  uid : Nat := 0
  issue : Nat := 0
  cfg : Word := 0
  set : Fin 2 := 0
  cont : Bool := false
  left : Nat := 0
  leftScale : Nat := 0
  right : Nat := 0
  rightScale : Nat := 0
  /-- extra cycles of a debug build -/
  dbg : Nat := 0
  /-- the cycle a later stream or mm.pwr ended it (R33, R276) -/
  endedAt : Option Nat := none
  /-- operand buffers, left and right: word w at w mod 256; group g of a transposed read, 8 entries, at g mod 32 -/
  lw : Tbl Bytes := []
  rw : Tbl Bytes := []
  /-- scale buffers, left and right: the 32 scale bytes of block q at q mod 8 -/
  ls : Tbl Bytes := []
  rs : Tbl Bytes := []
  /-- blocks rounded in every cell and added into the set already, and the flags they raised -/
  folded : Nat := 0
  fl : Nat := 0
  deriving DecidableEq, Repr

/-- What the array knows of one accumulator set (R32): its last stream and its last drain. -/
structure SetInfo where
  /-- ready cycle of the last stream, if any since admission or resumption -/
  ready : Option Nat := none
  /-- issue cycle of the last drain after the last stream, if any -/
  drained : Option Nat := none
  deriving DecidableEq, Repr

/-- One array of a tile with its two feeders (R30–R34). -/
structure ArraySt where
  cfg : Word := 0
  pwr : Pwr := .on
  gated : Bool := false
  streams : List Stream := []
  set0 : SetInfo := {}
  set1 : SetInfo := {}
  deriving DecidableEq, Repr

/-- A drain in the Couch (R284). -/
structure Drain where
  /-- number of the drain -/
  uid : Nat
  issue : Nat
  arr : Fin 2
  set : Fin 2
  entry : CouchEntry
  /-- g[RE] as it stood at issue; the other address registers follow -/
  re : Nat
  rs : Nat
  ru : Nat
  rus : Nat
  /-- chain that takes the rows, for EP_DEST 3 -/
  chain : Option Nat
  /-- first cycle in which no row is read any more (R35) -/
  cut : Option Nat
  /-- accumulators read, u rows and u scale bytes, by row -/
  rows : Tbl (List Word)
  us : Tbl Bytes
  /-- u scale bytes, by row -/
  uss : Tbl Byte
  deriving DecidableEq, Repr

/-- An issue of a chain stage that is due (R254): the stage, the cycle, the row it takes, and its number. -/
structure ChainIssue where
  stage : Nat
  cyc : Nat
  row : Option (List Word)
  i : Nat
  deriving DecidableEq, Repr

/-- A chain in flight (R253): the general registers as read at its start, its stages by slot and word, the issues
due, and the first cycle in which it is over once none is due. -/
structure Chain where
  uid : Nat
  regs : Tbl Word
  stages : List (Nat × Word)
  pend : List ChainIssue
  till : Nat
  deriving DecidableEq, Repr

/-- CRC-32C of 256 zero bytes, the check of a zero-filled sheet (R404). -/
def zeroChk : Word := 0xB872B190#32

/-- The check and state a tile keeps for one sheet (R126). At reset the store is zero-filled and SEALED. -/
structure SheetSt where
  crc : Word := zeroChk
  /-- OPEN -/
  opn : Bool := false
  /-- the producer writing the sheet in ascending order, 0 none; bytes written so far; CRC register over them -/
  prod : Nat := 0
  /-- bytes it has written so far -/
  upto : Nat := 0
  /-- CRC register over them -/
  run : Word := 0
  deriving DecidableEq, Repr

/-- The first half of a sheet, or of a reduced line, that is arriving in two halves: the cycle the sheet was accepted in as a
whole, whether it is dropped at a closed bank, the first half of its check, and its bytes (R128, R129, R176, R185). -/
structure HalfSt where
  since : Nat
  dropped : Bool
  chk : Nat
  data : Bytes
  deriving DecidableEq, Repr

/-- A tile (R34–R41): control core, arrays, Couch, vector unit; its store lies in `MemSt`. -/
structure Tile where
  /-- g0–g31 -/
  g : Tbl Word := []
  /-- p1–p7 in bits 1–7; p0 reads 1 -/
  preds : Byte := 0
  /-- hardware loops -/
  loops : Tbl Loop := []
  /-- what the control core does -/
  core : CoreState := .ended
  /-- address of the bundle issued last, whose operations read it as their own address -/
  cur : Nat := 0
  /-- address of the next bundle -/
  pc : Nat := 0
  /-- first cycle in which the next bundle may issue -/
  nextAt : Nat := 0
  /-- target of a taken branch whose delay bundle has not issued -/
  brTarget : Option Nat := none
  /-- instruction memory: slot k of bundle a at 8a + k -/
  imem : Tbl Word := []
  /-- accumulators: ((array × 2 + set) × 32 + row) × 32 + column -/
  acc : Tbl Word := []
  /-- v0–v63: register × 32 + lane -/
  v : Tbl Word := []
  /-- cycle of the last issue on the long and on the reduction pipeline (R287) -/
  longLast : Option Nat := none
  /-- cycle of the last issue on the reduction pipeline (R287) -/
  redLast : Option Nat := none
  /-- cycle of the last issue of any V operation (R44) -/
  vLast : Option Nat := none
  /-- the vector unit is clock-gated (R44) -/
  vGated : Bool := false
  /-- array 0 with its feeders -/
  arr0 : ArraySt := {}
  /-- array 1 with its feeders -/
  arr1 : ArraySt := {}
  /-- Couch entries (R280) -/
  couch : Tbl CouchEntry := []
  /-- drains under way (R34) -/
  drains : List Drain := []
  /-- chains under way (R253) -/
  chains : List Chain := []
  /-- stochastic setting of the vector unit: tensor id and element base -/
  srTensor : Word := 0
  /-- element base of that setting -/
  srBase : BitVec 48 := 0
  /-- sticky arithmetic flags (R71) -/
  flags : Byte := 0
  /-- tile-store banks (R127) -/
  banks : Tbl Bank := []
  /-- Felt status bits raised in the span: collide, empty, check, discard (R102) -/
  feltBits : Byte := 0
  /-- collisions, empties and discards of the span so far -/
  feltCnt : Tbl Nat := []
  /-- MEM_STATUS bits raised in the span (R145) -/
  memBits : Byte := 0
  /-- MESH_STATUS bits raised in the span, and collisions, cap breaches and discarded partials so far (R189) -/
  meshBits : Byte := 0
  /-- collisions, cap breaches and discarded partials so far (R189) -/
  meshCnt : Tbl Nat := []
  /-- cycle and register of the writes of the other slots of the bundle whose wait the tile stands in (R239) -/
  mates : List (Nat × GReg) := []
  /-- bytes of descriptors that are being read: 8 × issue cycle + part, + 4 for a pulp descriptor -/
  ld : Tbl Bytes := []
  /-- slot ↦ 1 + the last cycle in which a chain stage issued to it (R255) -/
  chainUse : Tbl Nat := []
  deriving DecidableEq, Repr

/-! ### Tile-store accesses and delayed effects -/

/-- Where the data of a tile-store read goes. -/
inductive Sink where
  /-- ld.w: a general register in a cycle -/
  | greg (rd : GReg) (due : Nat)
  /-- vld: a vector register in a cycle -/
  | vreg (vd : VReg) (due : Nat)
  /-- element word w of a stream's feeder -/
  | word (arr : Fin 2) (uid : Nat) (right : Bool) (w : Nat)
  /-- scales of block q of a stream's feeder -/
  | scale (arr : Fin 2) (uid : Nat) (right : Bool) (q : Nat)
  /-- a Felt word: lane, REVS, KIND, FIRST, SW, sheet slice or none for CRC-4, and the cycle it reaches the head -/
  | felt (lane : Fin 4) (revs : Nat) (kind : BitVec 2) (first sw : Bool) (slice : Option (BitVec 4)) (due : Nat)
  /-- scale bytes of the Felt words injected for a cycle: the lanes in order -/
  | feltScale (lanes : List (Fin 4)) (due : Nat)
  /-- u row of a drain -/
  | drainU (uid i : Nat)
  /-- scale byte of a u row -/
  | drainUs (uid i : Nat)
  /-- half of an epilogue descriptor (0, 1), or its column values (2), with the descriptor's address -/
  | couchSet (epi : Fin 16) (part : Nat) (issue addr : Nat)
  /-- a queue descriptor -/
  | qDesc (q : QNo) (issue : Nat)
  /-- half of a pulp descriptor -/
  | pulpDesc (part : Nat) (issue : Nat)
  /-- half-sheet of mesh.send: destination, line, half, cycle it leaves -/
  | send (dest line half : Nat) (leave : Nat)
  /-- half-sheet of rv.write: levee, offset in the window, half, number of the sheet's transfer, cycle it leaves -/
  | rvw (lev : Fin 4) (off half id : Nat) (leave : Nat)
  deriving DecidableEq, Repr

/-- A scheduled tile-store access of the current cycle: its position in the order of R40, a tie-break (array
number), and either the runs it reads with their sink, or the runs it writes with their producer and, for the
half of an arriving sheet, its half of the sheet's check, and the cycle it was accepted in (R128). -/
inductive Access where
  | read (tile : Nat) (rank tie : Nat) (segs : List (Nat × Nat)) (sink : Sink)
  | write (tile : Nat) (rank tie : Nat) (segs : List (Nat × Bytes)) (prod : Nat) (chk : Nat)
    (since : Nat := 0)
  deriving DecidableEq, Repr

/-- Effects that come into force in a later cycle (R43). -/
inductive Effect where
  | gset (tile : Nat) (rd : GReg) (v : Word)
  | pset (tile : Nat) (pd : PReg) (v : Bool)
  | vset (tile : Nat) (vd : VReg) (lanes : List Word)
  | flags (tile : Nat) (m : Byte)
  | cfg (tile : Nat) (arr : Fin 2) (w : Word)
  | couch (tile : Nat) (epi : Fin 16) (e : CouchEntry)
  | vsr (tile : Nat) (tensor : Word) (base : BitVec 48)
  | access (a : Access)
  /-- row i of a drain is read from the set -/
  | drainRow (tile uid i : Nat)
  /-- row i of a drain is written out: y after E1 and E2, and the u row with its scale when E3 applies -/
  | drainOut (tile uid i : Nat)
  /-- the bank cycle of an rv.read sheet: levee, edge position, offset in the window, tile and its address -/
  | rsvRead (lev : Fin 4) (edge off tile addr : Nat)
  /-- a bank cycle of an rv.write sheet: levee, edge position, offset in the window, half, transfer number, tile,
  data, half of the check -/
  | rsvWrite (lev : Fin 4) (edge off half id tile : Nat) (data : Bytes) (chk : Nat)
  /-- the request of a shadow sheet is due to leave: queue, number of the queue entry, sheet (R162) -/
  | shadow (tile q uid sheet : Nat)
  /-- the bank cycle of a shadow sheet: levee, edge position, offset in the window, tile and its address, and whose it is -/
  | shadowRead (lev : Fin 4) (edge off tile addr : Nat) (of : Nat × Nat × Nat)
  /-- half of a shadow sheet reaches its tile, with its half of the check -/
  | shadowHalf (tile half : Nat) (of : Nat × Nat × Nat) (data : Bytes) (chk : Nat)
  /-- a weight-version operation is accepted: 0 publish, 1 pin, 2 unpin, 3 claim; tile, queue, entry, version, tag -/
  | wv (kind tile q entry ver : Nat) (tag : TagNo)
  deriving DecidableEq, Repr

/-! ### The Felt -/

/-- A word on a lane (R78), by loop, lane and slot phase (R88). -/
structure FeltWord where
  loop : Nat
  lane : Fin 4
  phase : Nat
  kind : BitVec 2
  first : Bool
  sw : Bool
  chk : BitVec 4
  scale : Byte
  data : Bytes
  /-- the head and the cycle of its automatic removal (R90) -/
  till : Option (Nat × Nat) := none
  /-- the tile-store sheet it was read from, tile × 768 + line, and which of its eight words it is (R80; log entry 6) -/
  sheet : Nat × Nat := (0, 0)
  deriving DecidableEq, Repr

/-- A word waiting to be injected at a tile and lane in a cycle: 0 Couch, 1 vector unit, 2 felt.inject (R89). -/
structure FeltInj where
  tile : Nat
  lane : Fin 4
  cyc : Nat
  prio : Nat
  revs : Nat
  kind : BitVec 2
  first : Bool
  sw : Bool
  chk : BitVec 4
  scale : Byte
  data : Bytes
  /-- the tile-store sheet a sheet word was read from, and which of its words it is -/
  sheet : Nat × Nat := (0, 0)
  deriving DecidableEq, Repr

/-- A pending automatic removal of a head's router (R90). -/
structure FeltRemoval where
  tile : Nat
  lane : Fin 4
  cyc : Nat
  deriving DecidableEq, Repr

/-- A felt.remove or felt.copy of a cycle and lane, with the address it writes to, if it writes (R279). -/
structure FeltTake where
  tile : Nat
  lane : Fin 4
  cyc : Nat
  remove : Bool
  addr : Option Nat
  deriving DecidableEq, Repr

/-- Row i of a gather-add or gather-end at a tile in a cycle (R97): the tile's values, the lanes done with their
words' values, and for a gather-end where the row goes: an address here, or one of another tile. -/
structure FeltGather where
  tile : Nat
  cyc : Nat
  y : List Word
  ending : Bool
  addr : Nat
  dest : Option Nat
  got : Tbl (List Word)
  deriving DecidableEq, Repr

/-- A sheet of which a tile has used words on a lane (R100; log entry 6): the tile-store sheet they come from, and the words
used, each with its number in the sheet. -/
structure FeltRun where
  tile : Nat
  lane : Fin 4
  sheet : Nat
  words : List (Nat × FeltWord)
  /-- cycle of the last of them -/
  cyc : Nat
  /-- the words were placed at this tile in the cycles it used them -/
  own : Bool := false
  deriving DecidableEq, Repr

/-! ### The mesh -/

/-- A scheduled flit in flight (R176): the router it reaches, the cycle, and where it comes in: 0 local, 1 north,
2 east, 3 south, 4 west, 8 + k from reduction context k. -/
structure Flit where
  at_ : Nat
  cyc : Nat
  inp : Nat
  /-- at the local port: 0 Couch, 1 vector unit, 2 mesh.send, 3 rv.read, 4 rv.write (R291; log entry 135) -/
  unit : Nat := 0
  /-- a reduction partial, on VC1 -/
  vc1 : Bool := false
  /-- the reduction context a partial is bound for: RID -/
  rid : Nat := 0
  /-- the RC_OUT code of the context it leaves -/
  out : Nat := 0
  /-- the grid side it is bound for, none for a tile -/
  edge : Option (Fin 4) := none
  /-- the destination tile or levee -/
  dest : Nat := 0
  /-- 0 sheet, 1 reservoir request, 2 row, 3 reduction partial, 4 reservoir read data, 5 reservoir write data -/
  kind : Nat := 0
  /-- second flit of a sheet -/
  last : Bool := false
  /-- byte address in the destination's tile store -/
  addr : Nat := 0
  /-- offset in the reservoir window, and number of the transfer -/
  off : Nat := 0
  /-- number of the transfer -/
  id : Nat := 0
  /-- CHK: half of the check of the sheet, bits [15:0] in its first flit and [31:16] in its second; CRC-16 of a partial -/
  chk : Nat := 0
  /-- bytes it carries -/
  data : Bytes := []
  /-- scale byte carried for the destination, with its address (R283) -/
  scale : Option (Nat × Byte) := none
  /-- the tile whose operation sent it -/
  src : Nat := 0
  /-- request or data of a shadow sheet: queue, number of its entry, sheet (R162) -/
  shadow : Option (Nat × Nat × Nat) := none
  deriving DecidableEq, Repr

/-- An unscheduled flit waiting in a VC2 or VC3 input buffer (R182). -/
structure VFlit where
  dest : Nat
  /-- the levee crossing it is bound for, none for a tile -/
  edge : Option (Fin 4) := none
  /-- KIND of R176: 0 sheet data, 2 queue request or data, 4 pulp request, 5 pulp reply, 6 management, 7 multicast -/
  kind : Nat
  /-- tile it comes from -/
  src : Nat
  /-- request: 1 steal, 2 insert (key, item, value), 3 probe (key, item, record); reply: 1 steal (lo, hi),
  3 probe (item, record); multicast: first and last row and first and last column of its rectangle, and 1 in a column -/
  args : List Nat := []
  /-- multicast: outputs of this router still to be served -/
  outs : Option (List Nat) := none
  /-- byte address at the destination -/
  addr : Nat := 0
  /-- bytes it carries -/
  data : Bytes := []
  /-- second flit of a sheet, or the one flit of a packet -/
  last : Bool := true
  /-- half of the check of a sheet: bits [15:0] in its first flit, [31:16] in its second -/
  chk : Nat := 0
  /-- queue request or data: queue of the tile it comes from or is bound for, number of the queue entry, sheet -/
  qref : Option (Nat × Nat × Nat) := none
  /-- cycle it is at this router (R178) -/
  since : Nat
  /-- cycle in which its packet was offered at a local port or at a crossing (MESH_VC2_MAX) -/
  born : Nat
  deriving DecidableEq, Repr

/-- A reduction context of a router, whether it is declared for the span (R184, R260), its two input queues of flits
with their checks and arrival cycles, and the flits it has sent to the local port. -/
structure RCtx where
  decl : Bool := false
  ina : Nat := 0
  inb : Nat := 0
  out : Nat := 0
  line : Nat := 0
  qa : List (Bytes × Nat × Nat) := []
  qb : List (Bytes × Nat × Nat) := []
  sent : Nat := 0
  deriving DecidableEq, Repr

/-- An entry of a tile's deposit buffer (R39): unscheduled data for an address. -/
structure DepWrite where
  addr : Nat
  data : Bytes
  /-- 1 queue, 2 mesh delivery, 3 pulp engine (R146) -/
  writer : Nat
  /-- queue of the tile, for queue data -/
  q : Nat
  /-- number of the queue entry and its sheet, for queue data -/
  uid : Nat
  /-- its sheet -/
  sheet : Nat
  /-- check of a sheet, its low half only until the second flit is here; none for bytes within a sheet -/
  chk : Option Word
  /-- bytes within a sheet, which leave it OPEN -/
  part : Bool
  /-- first cycle in which it may be written -/
  since : Nat
  /-- bytes it takes in the buffer: 256 for a sheet whose second half is still to come -/
  size : Nat := 0
  /-- granules that wait for free bank-cycles, once the writing has begun -/
  left : Option (List Nat) := none
  deriving DecidableEq, Repr

/-! ### Queues -/

/-- A queue descriptor (R148). -/
structure Desc where
  shlev : Fin 4
  shoff : Nat
  ver : Word
  entry : Nat
  tsa : Nat
  va : Nat
  deadline : Nat
  len : Nat
  wv : Bool
  tag : TagNo
  fb : BitVec 2
  fmt : BitVec 4
  op : BitVec 2
  raw : Bytes
  deriving DecidableEq, Repr

/-- What an entry of a queue is doing (R147, R292). -/
inductive QKind where
  | xfer
  /-- output of the pulp engine: bytes to be written from an offset in the first sheet on (R200) -/
  | pulpOut (off : Nat)
  /-- a sheet that the pulp engine reads for its item (R190, R199) -/
  | pulpIn
  | wvPin (entry : Nat) (ver : Nat)
  | wvClaim (entry : Nat)
  deriving DecidableEq, Repr

/-- An entry of a queue: pushed and not completed (R147). -/
structure QEnt where
  uid : Nat
  kind : QKind
  d : Desc
  /-- deadline as a span cycle (R149); for a weight-version operation the cycle it was accepted in -/
  dl : Nat
  /-- the deadline was missed (R149) -/
  missed : Bool := false
  /-- fallback taken, with the first sheet not transferred (R161) -/
  fell : Option Nat := none
  /-- sheets not to release: those before a restored descriptor's first sheet (R171) -/
  skip : Nat := 0
  /-- physical addresses of the sheets released so far, in order (R151) -/
  released : List Nat := []
  /-- source sheets of a write read at their release, by sheet, with their checks (R152) -/
  src : Tbl (Bytes × Word) := []
  /-- granules of source sheets that wait for free bank-cycles, by sheet (R39, R152) -/
  srcLeft : Tbl (List Nat) := []
  /-- sheets that have reached their controller, with the cycle from which they wait there (R151, R158) -/
  atCtl : Tbl Nat := []
  /-- sheets complete, in the deposit buffer or on their way from the shadow, and those written -/
  taken : List Nat := []
  /-- sheets written -/
  done : List Nat := []
  /-- sheets held at the controller (R332) -/
  held : List Nat := []
  /-- shadow sheets asked for that have not come (R162) -/
  shOut : List Nat := []
  deriving DecidableEq, Repr

/-- A halted queue (R165): cause, number of its head descriptor's entry, and its first sheet not transferred. -/
structure QHalt where
  cause : Nat
  uid : Nat
  sheet : Nat
  deriving DecidableEq, Repr

/-- A tag (R156): outstanding count and recorded status. -/
structure TagSt where
  count : Nat := 0
  kind : BitVec 2 := 0
  first : Nat := 0
  deriving DecidableEq, Repr

/-! ### Weight versions -/

/-- One copy of a weight tensor (R111). -/
structure WvCopy where
  ver : Option Nat := none
  pins : Nat := 0
  writing : Bool := false
  /-- device virtual address and size in bytes -/
  va : Nat := 0
  size : Nat := 0
  deriving DecidableEq, Repr

/-- One entry of the weight version table (R111). -/
structure WvEntry where
  c0 : WvCopy := {}
  c1 : WvCopy := {}
  newest : Nat := 0
  deriving DecidableEq, Repr

/-! ### Pulp engines -/

/-- A message in a pulp engine's inbox (R196, R199). -/
inductive PulpMsg where
  | steal (fromRank : Nat) (cyc : Nat)
  | reply (lo hi : Nat) (cyc : Nat)
  | insert (key item val : Nat) (fromRank : Nat) (cyc : Nat)
  | probe (key item slot : Nat) (fromRank : Nat) (cyc : Nat)
  | probed (item slot : Nat) (data : Bytes) (cyc : Nat)
  deriving DecidableEq, Repr

/-- A pulp phase in a tile (R192–R199). -/
structure Pulp where
  desc : Bytes := []
  t0 : Nat := 0
  active : Bool := false
  refused : Bool := false
  /-- the cycle of the last refused pulp.start (R193, R210) -/
  refusedAt : Option Nat := none
  /-- the engine stopped at a halt of Q6 or Q7 (R209) -/
  stopped : Bool := false
  /-- items of the phase -/
  n : Nat := 0
  /-- a batch record exceeded its bound (R208) -/
  overBudget : Bool := false
  /-- first item left -/
  lo : Nat := 0
  /-- end of the items left -/
  hi : Nat := 0
  /-- item in progress -/
  item : Option Nat := none
  /-- cycle in which it was taken -/
  since : Nat := 0
  /-- 1 + the cycle in which a range was received last (R196) -/
  gotAt : Nat := 0
  /-- the record of the group is still to be read (R193) -/
  setup : Bool := false
  /-- granules of the own tile store read for the record or the request in service, by granule (R39) -/
  got : Tbl Bytes := []
  /-- hardware has clock-gated the engine: no operation is active (R44) -/
  gated : Bool := true
  /-- number of the next victim of the search under way, none when not searching -/
  search : Option Nat := none
  /-- a steal request is out -/
  awaiting : Bool := false
  /-- no work is left here -/
  finished : Bool := false
  /-- cycle in which the engine completed -/
  doneAt : Option Nat := none
  /-- messages not yet served -/
  inbox : List PulpMsg := []
  /-- probe records received for the item in progress -/
  recs : Tbl Bytes := []
  /-- probe records still to come -/
  outstanding : Nat := 0
  /-- the destination row of the last SCATTER_ADD item processed (R204) -/
  lastDest : Option Nat := none
  /-- PC_NOSTEAL as it stood at the start (R210), non-empty steal replies received, and an insertion dropped here -/
  nosteal : Bool := false
  /-- non-empty steal replies received -/
  steals : Nat := 0
  /-- an insertion was dropped here (R203) -/
  drop : Bool := false
  /-- 1 + the cycle in which a request was served last (R196) -/
  served : Nat := 0
  /-- the 16 keys of the HINSERT or HPROBE item in progress, and the values of an HINSERT item -/
  keys : List Nat := []
  /-- the values of an HINSERT item -/
  vals : List Nat := []
  /-- how many of the keys have been asked for -/
  asked : Nat := 0
  /-- output for the own tile store that waits for the deposit buffer -/
  outq : List DepWrite := []
  /-- sheets of HBM read for the item in progress, by virtual sheet number: the cycle from which the engine has them, and their
  bytes (R190; log entry 181) -/
  cache : Tbl (Nat × Bytes) := []
  /-- scheduled accesses of the tile since pulp.start, before the home slots were known: cycle and runs (R205) -/
  early : List (Nat × List (Nat × Nat)) := []
  deriving DecidableEq, Repr

/-! ### Registers -/

/-- The device registers: the stored words by number (an unlisted register holds `Reg.reset` of its number, R11), and of
the cycle under way the status bits set and the counts that advanced event counters (R15, R16). -/
structure RegFile where
  val : Tbl Word := []
  /-- status bits set in this cycle, by register (R15) -/
  set : Tbl Word := []
  /-- events counted in this cycle, by counter (R16) -/
  cnt : Tbl Nat := []
  deriving DecidableEq, Repr

/-! ### Logbook -/

/-- A logbook record (R442). -/
structure LogRec where
  seq : Nat
  code : BitVec 16
  data : Bytes
  sev : Nat
  src : Nat
  supp : Nat
  deriving DecidableEq, Repr

/-- An event in the staging buffer of a clear (R452): it is the first stopping record of slot k when k is named, and the PREEMPT record of slot k when k + 16 is. -/
structure LogEv where
  code : BitVec 16
  src : Nat
  data : Bytes
  stopOf : Option Nat
  deriving DecidableEq, Repr

/-- Per-code rate limit (R447): burst, period, tokens held, pending suppressed count. -/
structure LogLim where
  burst : Nat
  period : Nat
  tokens : Nat
  pending : Nat
  deriving DecidableEq, Repr

/-! ### Program slots -/

/-- State of a program slot (R356). -/
inductive SlotState where
  | empty | admitted | running | stopping | preempted | restoring | ended
  deriving DecidableEq, Repr

/-- Span record (R259). -/
structure SpanRec where
  mode : BitVec 2 := 0
  polder : Word := 0
  rctx : Nat := 0
  rcount : Nat := 0
  maint : Nat := 0
  deriving DecidableEq, Repr

/-- A segment placed in the program's address space (R261). -/
structure Segment where
  va : Nat
  size : Nat
  rights : Byte
  big : Bool
  deriving DecidableEq, Repr

/-- A patch record of kind 1, kept until START (R262, R358). -/
structure Patch where
  form : Nat
  index : Nat
  sect : Nat
  tile : Nat
  off : Nat
  addend : BitVec 64
  deriving DecidableEq, Repr

/-- The tide of a program of several modules at this module (R311–R314). -/
structure Tide where
  /-- UP of the current round was sent, or the root has decided; the tick of the arrival -/
  arrived : Bool := false
  /-- tick of the arrival -/
  arrivedAt : Nat := 0
  /-- UP of the current round was sent, or the root has decided -/
  upSent : Bool := false
  /-- the round (R313) -/
  round : Nat := 0
  /-- UP records by round, port, TD_SENT and TD_RECV: of this span, and of the next one -/
  ups : List (Nat × Nat × Nat × Nat) := []
  /-- UP records of the next span -/
  early : List (Nat × Nat × Nat × Nat) := []
  /-- PASS has come -/
  passed : Bool := false
  /-- a recount is under way -/
  recount : Bool := false
  /-- transactions originated and received, by span parity -/
  sent : Tbl Nat := []
  /-- transactions received, by span parity -/
  recv : Tbl Nat := []
  deriving DecidableEq, Repr

/-- What a pre-emption leaves standing in a tile that R169 does not save: of the state that R251 carries over a wait, all that
R168 does not name (log entry 105). -/
structure TileKeep where
  preds : Byte := 0
  cfg0 : Word := 0
  cfg1 : Word := 0
  couch : Tbl CouchEntry := []
  srTensor : Word := 0
  srBase : BitVec 48 := 0
  deriving DecidableEq, Repr

/-- A program slot and what admission reserved for it (R141, R356). -/
structure Slot where
  state : SlotState := .empty
  owner : Option FnNo := none
  debug : Bool := false
  hazStop : Bool := false
  relaxed : Bool := false
  modules : Nat := 0
  hbmMiB : Nat := 0
  /-- reserved 2 MiB frames: first frame and number of each run, in the order they were placed -/
  frames : List (Nat × Nat) := []
  /-- save-area frame, PA[39:30] -/
  save : Option Nat := none
  /-- window of each levee: first granule and granules -/
  win : Tbl (Nat × Nat) := []
  /-- segments of the image (R139) -/
  segs : List Segment := []
  /-- span records of the image (R259) -/
  spans : List SpanRec := []
  /-- reduction contexts (R184) -/
  rctx : List (BitVec 64) := []
  /-- chain table (R256) -/
  chainTab : List Bytes := []
  /-- patches of START (R262) -/
  patches : List Patch := []
  /-- tiles with a bundle count above 0 -/
  coded : List Nat := []
  /-- weight version table (R111) -/
  wv : Tbl WvEntry := []
  /-- START: seed, span number, job, command that ran it -/
  seed : BitVec 64 := 0
  /-- number of the span -/
  span : Word := 0
  /-- job of the program -/
  job : BitVec 16 := 0
  /-- CID of its START -/
  startCid : BitVec 16 := 0
  /-- queue of its START -/
  startQ : Nat := 0
  /-- span record in force -/
  spanRec : Nat := 0
  /-- a stop is pending, with the code and sequence number of the first stopping record (R410); the number is
  none while that record waits in the staging buffer of a clear (R452) -/
  pendStop : Option (BitVec 16 × Option Nat) := none
  /-- the program is being stopped without a save: event of R360, code and number of its cause (R357, R314, R410) -/
  ending : Option (Nat × BitVec 16 × Option Nat) := none
  /-- the halt point of the pre-emption under way made it, as against a command (R360 event 4) -/
  byHalt : Bool := false
  /-- number of the PREEMPT record of the pre-emption under way (R360); none while it waits in the staging buffer of
  a clear (R452) -/
  preSeq : Option Nat := some 0
  /-- span cycle in which the pre-emption under way began -/
  reqCycle : Nat := 0
  /-- span cycle, and grid cycles since reset, at the save (R171) -/
  savedCycle : Nat := 0
  /-- grid cycles since reset, at the save (R171) -/
  savedTick : Nat := 0
  /-- teardown by FLR under way (R363) -/
  teardown : Bool := false
  /-- measured bytes of the image as received (R432) -/
  image : Bytes := []
  /-- the tide of its spans, kept while the program is PREEMPTED (R311–R314) -/
  tide : Tide := {}
  /-- state of its tiles that a pre-emption leaves standing beside the save area, by tile (R168, R251) -/
  keep : Tbl TileKeep := []
  deriving DecidableEq, Repr

/-! ### Baette links -/

/-- State of a port (R296). -/
inductive PortState where
  | disabled | detect | eq | align | ident | active | degraded | recover | standby | down
  deriving DecidableEq, Repr

/-- What a physical receive lane has shown in training (R297, R298): its marker, whether the receiver meets its error
ratio, the peer's TSTATE and LANE, inversion, and whether its last frame had TSTATE 3 and CDOWN 0. -/
structure LaneSt where
  found : Bool := false
  good : Bool := false
  peerState : Nat := 0
  lane : Nat := 0
  inverted : Bool := false
  last : Bool := false
  deriving DecidableEq, Repr

/-- A transmit lane by its logical number: its taps c(−2), c(−1), c(0), c(+1) of 6 bits each from bit 0 on, the answers
in CSTAT, the requests of the peer's last frame, the PRBS31 register that fills its frames, and the frame it sent last
(R297). -/
structure TxLane where
  taps : Nat := 0
  cstat : Nat := 0
  cupd : Nat := 0
  preq : Bool := false
  psel : Nat := 0
  fill : Nat := 0
  frame : Nat := 0
  deriving DecidableEq, Repr

/-- A flit waiting to be sent, or held for replay: its channel, its header but for the link fields, and the receive
buffer it occupies until it is sent. -/
structure TxFlit where
  vc : Nat
  ftype : Nat
  hdr : Nat
  payload : Bytes
  schk : Word
  seq : Nat := 0
  buf : Option (Nat × Nat) := none
  /-- place in the order in which flits came to the ports (R309) -/
  ord : Nat := 0
  deriving DecidableEq, Repr

/-- A Baette port (R293–R320). -/
structure Port where
  st : PortState := .disabled
  /-- lanes in use, and the first logical lane in use -/
  width : Nat := 0
  /-- first logical lane in use -/
  base : Nat := 0
  /-- the lanes are reversed (R298) -/
  rev : Bool := false
  /-- PT_CAUSE (R320) -/
  cause : Nat := 0
  /-- lanes of inverted polarity (R298) -/
  pol : Nat := 0
  /-- lanes that passed training (R299) -/
  lgood : Nat := 0
  /-- receive state of the lanes -/
  lanes : Tbl LaneSt := []
  /-- transmit side of the lanes in training -/
  tx : Tbl TxLane := []
  /-- time since the last training frame, in bits times the clock in MHz (R297) -/
  sendAcc : Nat := 0
  /-- ALIGN, or that part of RECOVER: frames with TSTATE 3 are sent, and how many are left (R297) -/
  aligning : Bool := false
  /-- frames with TSTATE 3 that are left to send -/
  cdown : Nat := 0
  /-- the stream sent: bits of the codeword that fills, how many, and the last message that is complete (R300) -/
  txMsg : Nat := 0
  /-- how many bits of it -/
  txPos : Nat := 0
  /-- the last message sent -/
  txLast : Option Nat := none
  /-- the stream received: bits of the codeword that have passed, and whether it cannot be corrected (R300) -/
  rxPos : Nat := 0
  /-- the codeword cannot be corrected -/
  rxBad : Bool := false
  /-- IDENT received: peer port and rank, and whether it matched (R318) -/
  peer : Option (Nat × Nat) := none
  /-- its tag, and its shape with SH_VALID (R317) -/
  peerDom : Nat × Nat := (0, 0)
  /-- a RECOVER from STANDBY leads back there, one from a state before IDENT was over to IDENT (log entry 151) -/
  back : PortState := .active
  /-- next SEQ to assign, last ACK received, expected SEQ, NAK to send -/
  seq : Nat := 0
  /-- last ACK received -/
  acked : Nat := 4095
  /-- SEQ expected -/
  expect : Nat := 0
  /-- a NAK is to be sent -/
  nak : Bool := false
  /-- replays without an advance of ACK -/
  replays : Nat := 0
  /-- sequenced flits not yet acknowledged -/
  retry : List TxFlit := []
  /-- flits to send again before any new one -/
  resend : List TxFlit := []
  /-- flits waiting, by channel -/
  waiting : Tbl (List TxFlit) := []
  /-- credits held, and credits to return, by channel -/
  credit : Tbl Nat := []
  /-- credits to return, by channel -/
  giveBack : Tbl Nat := []
  /-- round-robin pointers: the channel served next within requests (0) and responses (1) -/
  rr : Tbl Nat := []
  /-- the flit that left the port last -/
  sent : Option LinkFlit := none
  /-- the port is DOWN and its traffic waits for the peer's FAILOVER record; the record's last SEQ (R316) -/
  failing : Bool := false
  /-- last SEQ of that record (R316) -/
  lostSeq : Option Nat := none
  deriving DecidableEq, Repr

/-! ### Reduction -/

/-- State of a ream (R327, R342). -/
inductive ReamState where
  | idle | fill | scatter | summed | gather | done | abandoned
  deriving DecidableEq, Repr

/-- An owned slice of a ream being summed; its accumulators and staged contributions lie in RM_STAGE (R330, R331). -/
structure SliceSt where
  /-- contributions that lie in their staging slots: rank, sheet, of the remainder -/
  staged : List (Nat × Nat × Bool) := []
  /-- sheets added: rank, sheet, of the remainder -/
  added : List (Nat × Nat × Bool) := []
  /-- tick of the first contribution (R334) -/
  started : Option Nat := none
  /-- the slice is summed (R330) -/
  summed : Bool := false
  /-- its remainder is written (R338) -/
  remDone : Bool := false
  deriving DecidableEq, Repr

/-- A ream of a program's plan (R324) and its progress in the span. -/
structure Ream where
  raw : Bytes := []
  st : ReamState := .idle
  count : Nat := 0
  slices : Tbl SliceSt := []
  /-- contributions and gather sheets sent so far, in their order (R329, R340) -/
  sendPos : Nat := 0
  gatherPos : Nat := 0
  /-- base address of the gather region when GATHER was entered (R340) -/
  gbase : Option Nat := none
  /-- sheets committed into each owned gather slice in the span (R328) -/
  gcount : Tbl Nat := []
  /-- gather sheets that have arrived, by sheet of RM_GVA -/
  arrived : List Nat := []
  lateLogged : Bool := false
  /-- contributions of the next armed span that came early (R328) -/
  next : Tbl SliceSt := []
  /-- addresses of gather sheets of the next span that came early (R313, R340) -/
  early : List Nat := []
  deriving DecidableEq, Repr

/-- The reduction state of a slot: plan, reams, gates and doorbell counters (R323, R341). -/
structure RedSlot where
  reams : Tbl Ream := []
  /-- gate regions: doorbell counter, VA, length in bytes -/
  gates : List (Nat × Nat × Nat) := []
  doorbells : Tbl (BitVec 64) := []
  deriving DecidableEq, Repr

/-! ### Host interface -/

/-- One queue pair of a function beyond its registers (R349, R350): QC_EN in effect, QT_EN, the ring indices. -/
structure HostQ where
  enabled : Bool := false
  active : Bool := false
  sqHead : Nat := 0
  sqTail : Nat := 0
  cqHead : Nat := 0
  cqTail : Nat := 0
  phase : Bool := true
  deriving DecidableEq, Repr

/-- An accepted command that has not completed (R355): whether it has started, and whether its completion entry is
discarded because its queue was disabled (R350). -/
structure Accepted where
  c : HostCmd
  started : Bool := false
  gone : Bool := false
  /-- a credit is held for it -/
  credit : Bool := true
  deriving DecidableEq, Repr

/-- A completion or event entry waiting to be written, and whether a credit is held for it (R354, R355). -/
structure Compl where
  fn : FnNo
  q : Fin 16
  cid : BitVec 16
  ty : Nat
  slot : Byte
  status : Nat
  info0 : Nat
  info1 : Nat
  info2 : Nat
  credit : Bool
  /-- the entry of an ADMIT that succeeded (R433) -/
  adm : Bool := false
  deriving DecidableEq, Repr

/-- Quota of a function (R365): HBM in GiB, slots, credits. -/
structure FnQuota where
  gib : Nat
  slots : Nat
  credits : Nat
  deriving DecidableEq, Repr

/-- A run of a data section of an image (R258). -/
structure Run where
  key : Nat
  addr : Nat
  data : Bytes
  deriving DecidableEq, Repr

/-! ### Management -/

/-- Why an SPDM request is answered with ERROR (R434–R436). -/
inductive SpdmErr where
  | unsupportedRequest | negotiationFail | unspecified | unexpectedRequest | invalidRequest
  /-- with RDTExponent -/
  | responseNotReady (rdt : Nat)
  deriving DecidableEq, Repr

/-- Capabilities of the responder (R434): CERT_CAP, CHAL_CAP, and MEAS_CAP with signed measurements -/
inductive SpdmCap where
  | cert | chal | measSigned
  deriving DecidableEq, Repr

/-- MeasurementSpecification and MeasurementHashAlgo that the responder selects (R435) -/
inductive MeasSpec where
  | dmtf
  deriving DecidableEq, Repr
inductive MeasHash where
  | rawBitStream
  deriving DecidableEq, Repr

/-- The PLDM FRU record (R469). -/
structure FruRecord where
  manufacturer : String
  part : String
  serial : BitVec 64
  version : String
  fwrev : Word
  madeOn : Word
  deriving DecidableEq, Repr

/-- The last answer given on the management bus or an SPDM transport. -/
inductive MgmtResp where
  /-- PLDM numeric or state sensor reading; none: the sensor does not exist -/
  | sensor (id : Nat) (value : Option Word)
  /-- PLDM completion: true success, false ERROR_INVALID_DATA -/
  | pldm (ok : Bool)
  /-- PLDM FRU record -/
  | fru (r : FruRecord)
  /-- PLDM base: the types supported, and the terminus ID -/
  | pldmTypes (types : List Nat)
  | pldmTid (tid : Byte)
  /-- bytes read through the test port -/
  | testData (d : Bytes)
  /-- MCTP control answer: command, endpoint ID -/
  | mctp (code : Byte) (eid : Byte)
  /-- PLDM sensor event sent to the event receiver -/
  | event (id : Nat) (value : Word)
  /-- SPDM VERSION 0x12 -/
  | version
  /-- SPDM CAPABILITIES: what is supported, CTExponent, DataTransferSize, MaxSPDMmsgSize -/
  | capabilities (caps : List SpdmCap) (ct : Nat) (dts mms : Nat)
  /-- SPDM ALGORITHMS: the two extended structures selected, and how measurements are given -/
  | algorithms (asym hash : Word) (spec : MeasSpec) (measHash : MeasHash)
  /-- SPDM DIGESTS of the slot 0 chain -/
  | digests (d : Bytes)
  /-- SPDM CERTIFICATE portion -/
  | certificate (part : Bytes) (remaining : Nat)
  /-- SPDM CHALLENGE_AUTH or MEASUREMENTS: measurement blocks, nonce, signature or none -/
  | challengeAuth (nonce : Bytes) (sig : Bytes)
  | measurements (blocks : List (Nat × Bytes)) (nonce : Bytes) (sig : Option Bytes)
  /-- SPDM ERROR -/
  | error (e : SpdmErr)
  deriving DecidableEq, Repr

/-- The management endpoint (R465, R468): its MCTP endpoint ID and its PLDM terminus ID, 0 before one is assigned, the PLDM event
receiver, the sensor events sent to it, oldest first, the last answer on the bus, an SPDM transport or the test port, and the
exchanges of each SPDM connection since GET_VERSION, by the transport's place in SEC_SPDM (R434, R435). -/
structure MgmtSt where
  eid : Byte := 0
  tid : Byte := 0
  talk : Tbl (List SpdmExch) := []
  receiver : Option Byte := none
  events : List (Nat × Word) := []
  resp : Option MgmtResp := none
  deriving DecidableEq, Repr

/-! ### Start-up and security -/

/-- Flash and start-up (R369, R377, R380): flash pages of 4 KiB that differ from the factory contents, the window, the
command that is running with its BF_ADDR, a BR_CMD that waits for it (cold, by PLDM), and whether start-up has begun
since power good. -/
structure BootSt where
  flash : Tbl Bytes := []
  window : Mem := []
  busy : Option (Nat × Nat) := none
  next : Option (Bool × Bool) := none
  started : Bool := false
  /-- start-up is under way, with what training and self-test will find (R372); its stage stands in BS_STAGE -/
  plan : Option BootOutcome := none
  /-- PCIe subsystem identity of the image that booted (R370, R470) -/
  subsys : Bytes := []
  deriving DecidableEq, Repr

/-- Security (R428–R432): the SVN burned since delivery, the burn under way with its target, measurements 1–4, CI_FWREV
of the booted image, and whether identity key generation is under way. -/
structure SecSt where
  svn : Nat := 0
  burn : Option Nat := none
  meas : Tbl Bytes := []
  fwrev : Word := 0
  keying : Bool := false
  deriving DecidableEq, Repr

/-- What keeps the rails off (R386, R397, R461, R467). -/
inductive Latch where
  | none
  /-- until EN falls -/
  | untilFall
  /-- until EN has been low for 10 ms -/
  | untilLow
  deriving DecidableEq, Repr

/-- The supply of the rails (R460). -/
inductive Supply where
  | off
  /-- the input capacitance is being charged -/
  | charging
  | on
  deriving DecidableEq, Repr

/-- The module's supply (R384, R460, R461): the level of EN, an input lockout in force, less than 10 ms since the last
fall of EN. -/
structure ModSt where
  en : Bool := true
  locked : Bool := false
  holdoff : Bool := false
  latch : Latch := .none
  supply : Supply := .on
  deriving DecidableEq, Repr

end Sys2Proof.Machine
end

