-- ==== Sys2Proof/Machine/State.lean ====
section
/-!
DEFINITION. The state of the block: everything the spec gives the Epsal T1, as plain data, the state after reset,
and the two ways a command can stop. Every field's value at reset stands beside it.
-/
namespace Sys2Proof.Machine

/-- Why the block stops with a fault. Every effect the spec gives ends in a next state; one command stops so. -/
inductive Fault where
  /-- Raised by no command of the table: kept so that a host can name a stop of the block. Safe. -/
  | halted
  deriving DecidableEq, Repr

/-- Why a command is refused. -/
inductive Refusal where
  /-- The arm of the command has no meaning yet. Safe. -/
  | notModelled (mnemonic : String)
  /-- A slot operation with an encoding the spec reserves (R235, R247, R277, R286): the loader refuses an image
  that holds it (R263), so the spec gives it no effect. Raised by exec of DELAY, FELT_INJECT, FELT_REMOVE,
  FELT_COPY and VCVT. Safe. -/
  | reservedEncoding
  /-- An access to a test port that the debug-lock fuse leaves open (R439): the spec does not say what the port
  does. Raised by TEST_PORT_ACCESS. Safe. -/
  | testPortOpen
  deriving DecidableEq, Repr

/-- Memories of the module and what is kept beside them (chapter Memory tiers). -/
structure MemSt where
  /-- tile stores: tile × 0x30000 + address (R121) -/
  ts : Mem := []
  /-- check and state of every tile-store sheet: tile × 768 + sheet (R126) -/
  sheets : Tbl SheetSt := []
  /-- reservoirs: levee × 0x6000000 + offset (R130) -/
  rsv : Mem := []
  /-- checks of the reservoir sheets: levee × 0x60000 + sheet (R130) -/
  rsvChk : Tbl Word := []
  /-- HBM by physical address (R136) -/
  hbm : Mem := []
  /-- checks of the HBM sheets, by PA / 256 (R407) -/
  hbmChk : Tbl Word := []
  /-- bit errors held by a memory: place × 2^48 + word number ↦ 1 correctable, 2 uncorrectable (R407, R408) -/
  ecc : Tbl Nat := []
  /-- 2 MiB frames with a recorded uncorrectable error, and frames retired (R412) -/
  recorded : List Nat := []
  retired : List Nat := []
  /-- first halves of rv.write sheets that held their bank cycle, with their half of the check, by transfer number
  (R135) -/
  rsvw : Tbl (Bytes × Nat) := []
  /-- tile-store accesses of the current cycle (R40) -/
  acc : List Access := []
  /-- banks of each tile that accesses occupied in the cycle just over: unscheduled ones take the others (R39) -/
  used : Tbl (List Nat) := []
  /-- first halves of the sheets of which the mesh has brought one, by tile × 768 + sheet (R128, R129) -/
  halves : Tbl HalfSt := []
  deriving DecidableEq, Repr

/-- The Felt (chapter The Felt operand belt): the words on the lanes, and what waits at a router for a cycle. -/
structure FeltSt where
  words : List FeltWord := []
  inj : List FeltInj := []
  removals : List FeltRemoval := []
  takes : List FeltTake := []
  gathers : List FeltGather := []
  runs : List FeltRun := []
  deriving DecidableEq, Repr

/-- The mesh (chapter The tile mesh). -/
structure MeshSt where
  flits : List Flit := []
  /-- VC2 and VC3 input buffers: ((tile × 5 + port) × 2 + vc3) -/
  vbuf : Tbl (List VFlit) := []
  /-- VC2 flits offered at a local port whose buffer they have not entered yet: tile (R182) -/
  offer : Tbl (List VFlit) := []
  /-- queue data that has crossed from a levee die and waits at the port of its crossing: tile × 5 + port (R151, R158) -/
  inb : Tbl (List VFlit) := []
  /-- router × 8 + direction ↦ ticks of the scheduled flits of the last 64 cycles, newest first (R179) -/
  caps : Tbl (List Nat) := []
  /-- reduction contexts: tile × 8 + context (R184) -/
  rctx : Tbl RCtx := []
  /-- deposit buffers: tile (R39) -/
  deposit : Tbl (List DepWrite) := []
  /-- round-robin pointers of VC2: tile × 8 + output port ↦ next input port (R178) -/
  rr : Tbl Nat := []
  /-- tile × 8 + output port ↦ 1 + the tick in which it last sent a VC2 or VC3 flit (R178) -/
  vused : Tbl Nat := []
  deriving DecidableEq, Repr

/-- Queues and tags (chapter Decoupling queues and external memory). -/
structure QueSt where
  /-- entries of queue q of a tile, oldest first: tile × 8 + q (R147) -/
  q : Tbl (List QEnt) := []
  halts : Tbl QHalt := []
  /-- tile × 64 + tag (R156) -/
  tags : Tbl TagSt := []
  /-- pseudo-channel ↦ queue sheets served since levee-local traffic last took a slot there, 15 at most (R158) -/
  slots : Tbl Nat := []
  deriving DecidableEq, Repr

/-- The logbook (chapter The logbook): records by position, the next sequence number, the rate limits that differ
from those of their severity, the staging buffer and the data of a clear under way. -/
structure LogSt where
  recs : Tbl LogRec := []
  seqNext : Nat := 1
  lims : Tbl LogLim := []
  busy : Bool := false
  staging : List LogEv := []
  /-- records removed, LOG_DROP_COUNT at the clear and the number of the last record removed -/
  removed : Nat × Nat × Nat := (0, 0, 0)
  /-- the next position that the clear writes (R452) -/
  clearAt : Nat := 0
  deriving DecidableEq, Repr

/-- Clocking (chapter Clocking): by node 0–19 unless said otherwise. -/
structure ClkSt where
  /-- counts of stretched cycles in the span at the end of this cycle and of those before it, newest first (R219) -/
  hist : Tbl (List Nat) := []
  /-- nodes whose current cycle is stretched, and nodes with a droop seen in it -/
  now : List Nat := []
  /-- nodes with a droop seen in it -/
  droop : List Nat := []
  /-- margins of the monitors in ps, node × 9 + monitor, 255 at reset, and their disarmed crossings (R223) -/
  margin : Tbl Nat := []
  /-- monitors whose warning is disarmed (R223) -/
  warnOff : List Nat := []
  /-- monitors whose critical crossing is disarmed (R223) -/
  critOff : List Nat := []
  /-- SO_MASK of the span under way, and whether forced stretch occurred in it -/
  origin : Nat := 0
  /-- forced stretch occurred in it -/
  forced : Bool := false
  /-- lock time of the last PLL lock in µs -/
  lockUs : Nat := 0
  /-- DT_MV and FM_MIN (255 at reset) of each node -/
  dt : Tbl Nat := []
  /-- FM_MIN of each node, 255 at reset -/
  fmMin : Tbl Nat := []
  /-- drift of the occupancy of single sluices and crossing queues since their calibration (R216; log entry 96):
  (kind × 2304 + tile) × 4 + port, kind as SL_KIND and 3 for a crossing queue read by the grid side -/
  drift : Tbl Int := []
  /-- those that slipped since calibration (R230) -/
  slipped : List Nat := []
  deriving DecidableEq, Repr

/-- PCIe settings and status (R344; log entry 158): generation and width of the link, 0 while it is down, max payload and read request size in bytes, ASPM L1, and the AER uncorrectable and correctable status of each function. -/
structure Pcie where
  speed : Nat := 0
  width : Nat := 0
  mps : Nat := 128
  mrrs : Nat := 512
  l1 : Bool := false
  aerU : Tbl Word := []
  aerC : Tbl Word := []
  deriving DecidableEq, Repr

/-- The host interface (chapter Host interface and job control). -/
structure HostSt where
  /-- queue pairs: function × 16 + queue (R349) -/
  q : Tbl HostQ := []
  /-- admission credits held, by function (R355) -/
  used : Tbl Nat := []
  /-- quotas set by QUOTA, by function (R365); an unlisted function has those of its reset -/
  quota : Tbl FnQuota := []
  /-- round-robin pointers: the next function, and the next queue of each function (R355) -/
  rrFn : Nat := 0
  /-- the next queue of each function -/
  rrQ : Tbl Nat := []
  /-- commands accepted and not yet ended (R355) -/
  accepted : List Accepted := []
  /-- commands that have started and wait for their slot, with their code: PREEMPT 3, RESUME 4, COPY_OUT 7, ABORT 8
  (R357, R361) -/
  waits : List (Nat × HostCmd) := []
  /-- completion and event entries in the order they became ready (R355) -/
  waiting : List Compl := []
  /-- event record held for a slot until its function enables a queue (R360, R364) -/
  held : Tbl Compl := []
  /-- event records whose logbook record waits in the staging buffer of a clear: that record's mark, the queue of the
  START, and the entry (R360, R452) -/
  numbering : List (Nat × Nat × Compl) := []
  /-- host memory as the bus addresses of commands reach it, and address ranges in it whose reads fail (R359) -/
  mem : Mem := []
  /-- address ranges of it whose reads fail (R359) -/
  bad : List (Nat × Nat) := []
  /-- data of the last register read and of the last read through BAR4 -/
  rdata : BitVec 64 := 0
  /-- data of the last read through BAR4 (R362) -/
  b4 : Bytes := []
  /-- the PCIe link is up (R364, R373, R376) -/
  link : Bool := false
  /-- PCIe settings of the device (R344) -/
  pcie : Pcie := {}
  /-- the queue whose completion vector has fired in the batch that is being written, as function × 16 + queue (R348) -/
  batch : Option Nat := none
  /-- PF0 is in D3hot (R393) -/
  d3 : Bool := false
  deriving DecidableEq, Repr

/-- Power and thermal control (chapter Power, cooling and steady load). Powers are held in tenths of a watt. -/
structure PwrSt where
  /-- register values in effect: writes take effect at the next governor tick (R400) -/
  eff : Tbl Word := []
  /-- ballast power set and draw set by the governor: B and G of R388 -/
  ballast : Nat := 0
  /-- draw set by the governor: G of R388 -/
  draw : Int := 0
  /-- mean input power of the ticks of the last CP_WIN ms, the latest first (R387) -/
  hist : List Nat := []
  /-- the governor prepares for a START or RESUME (R391) -/
  preload : Bool := false
  /-- ballast energy below 1 J, in 10 µJ -/
  energy : Nat := 0
  /-- sensor mirror: temperatures by sensor, 0x8000 before the first reading (R399) -/
  temps : Tbl (BitVec 16) := []
  /-- calibration offsets of the sensors (R378) -/
  offsets : Tbl (BitVec 16) := []
  /-- highest reading above its derate threshold since the last update of OQ_THERMAL, by sensor (R396) -/
  overTemp : Tbl (BitVec 16) := []
  /-- milliseconds for which every sensor has stayed 5 K below its threshold, counted from the later of the start of
  that condition and the last change of OQ_THERMAL (R396) -/
  coolMs : Nat := 0
  /-- a trip threshold was reached and a sensor is not below its derate threshold again (R397) -/
  tripped : Bool := false
  /-- governor ticks of the current cap window, and whether a rail at its limit was logged in it (R386) -/
  winTick : Nat := 0
  /-- a rail at its limit was logged in it (R386) -/
  railLogged : Bool := false
  deriving DecidableEq, Repr

/-- Background tasks (R415–R418), by task 0–5: governor ticks of 100 µs since the last completed pass (log entry 43),
period and limit where they differ from those of reset, tasks reported as deferred since their last pass, and the port
that task 4 recalibrates next. -/
structure RasSt where
  age : Tbl Nat := []
  cfg : Tbl Word := []
  deferred : List Nat := []
  calPort : Nat := 0
  /-- the port that task 4 has sent to RECOVER (R415, R422) -/
  calOn : Option Nat := none
  /-- cycles left of the maintenance window that is open, whether it holds the boundary, the tasks that completed a pass in
  it, and the cycles that passes under way have run in windows (R416, R418) -/
  win : Nat := 0
  hold : Bool := false
  ran : List Nat := []
  done : Tbl Nat := []
  deriving DecidableEq, Repr

/-- The whole module. A table lists only entries that differ from their value at reset, named beside the field. -/
structure State where
  /-- span cycle of the grid (R4): 0 -/
  cycle : Nat := 0
  /-- the tiles (R30) -/
  tiles : Tbl Tile := []
  /-- tile stores, reservoirs and HBM (R121, R130, R136) -/
  mem : MemSt := {}
  /-- the Felt (R78) -/
  felt : FeltSt := {}
  /-- the mesh (R175) -/
  mesh : MeshSt := {}
  /-- the queues (R147) -/
  que : QueSt := {}
  /-- the pulp engines, by tile (R190) -/
  pulp : Tbl Pulp := []
  /-- the program slots (R356) -/
  slots : Tbl Slot := []
  /-- the logbook (R442) -/
  log : LogSt := {}
  /-- reduction state of each program slot (R323) -/
  red : Tbl RedSlot := []
  /-- the Baette ports (R293) -/
  ports : Tbl Port := []
  /-- equaliser presets P0–P7 of the calibration set in force: taps as in `TxLane` (R295, R378) -/
  presets : Tbl Nat := []
  /-- UP records, by TD_SPAN, round, port, TD_SENT and TD_RECV, that came before the START of an ADMITTED program (R358; log
  entry 50) -/
  tideHeld : List (Nat × Nat × Nat × Nat × Nat) := []
  /-- transactions at this module that wait for a slot of their controller, in the order they came: port, channel, flit (R158) -/
  linkHeld : List (Nat × Nat × LinkFlit) := []
  /-- number of flits that have come to the ports (R309) -/
  linkN : Nat := 0
  /-- clocking (R213) -/
  clk : ClkSt := {}
  /-- the host interface (R344) -/
  host : HostSt := {}
  /-- power and temperature (R387, R396) -/
  pwr : PwrSt := {}
  /-- background tasks (R415) -/
  ras : RasSt := {}
  /-- flash and start-up (R369, R372) -/
  boot : BootSt := {}
  /-- security (R425) -/
  sec : SecSt := {}
  /-- the management endpoint (R465) -/
  mgmt : MgmtSt := {}
  /-- supply and enable (R460, R461) -/
  md : ModSt := {}
  /-- times each MSI-X vector has fired: function × 32 + vector (R348) -/
  irq : Tbl Nat := []
  /-- vectors masked in the MSI-X tables, and those pending behind a mask, as function × 32 + vector (R348) -/
  msixMask : Tbl Unit := []
  /-- vectors pending behind a mask (R348) -/
  msixPend : Tbl Unit := []
  /-- fault, slip and fatal captures that hold an event not yet read (R145, R232, R421) -/
  xfHeld : Bool := false
  /-- the slip capture holds an event (R232) -/
  slipHeld : Bool := false
  /-- the fatal capture holds an event (R421) -/
  fatalHeld : Bool := false
  /-- ticks since reset: the model's own count of grid cycles, which no span boundary restarts (log entry 10) -/
  ticks : Nat := 0
  /-- T_done of the pulp phase under way (R206), and whether its registers were updated (R210) -/
  pulpDone : Option Nat := none
  /-- its registers were updated (R210) -/
  pulpLogged : Bool := false
  /-- number of the next stream, drain, chain, queue entry or transfer -/
  uid : Nat := 0
  /-- free values taken so far (log entry 2) -/
  freeN : Nat := 0
  /-- device registers by number (R9), with the status bits and counters that events of this cycle changed (R15, R16) -/
  regs : RegFile := {}
  /-- latches of the 64-bit pairs by the number of the low word; armed when listed (R8) -/
  latch : Tbl Word := []
  /-- effects that come into force in a later cycle, oldest first (R43) -/
  sched : List (Nat × Effect) := []
  /-- commands waiting, first in first out -/
  pending : List Instr := []
  deriving DecidableEq, Repr

/-- The module right after reset. -/
def State.reset : State := {}

end Sys2Proof.Machine
end

