-- ==== Sys2Proof/Machine/Log.lean ====
section
/-!
DEFINITION. Registers as stored words, event counters and status bits (R10–R16, R473), the logbook (R442–R449), and
stopping records (R409–R411).
-/
namespace Sys2Proof.Machine

/-- What a command answers. -/
abbrev Res := Host.Outcome State Fault Refusal

/-! ### Registers -/

/-- The word a register stores. -/
def State.reg (s : State) (n : RegNo) : Word := tget (Reg.reset n) s.regs.val n

/-- The state with a register's stored word replaced. -/
def State.setReg (s : State) (n : RegNo) (v : Word) : State :=
  { s with regs := { s.regs with val := tset (Reg.reset n) s.regs.val n v } }

/-- Field [hi:lo] of a register. -/
def State.rf (s : State) (n : RegNo) (hi lo : Nat) : Nat := wfld (s.reg n) hi lo

/-- The state with field [hi:lo] of a register replaced. -/
def State.setRf (s : State) (n : RegNo) (hi lo v : Nat) : State := s.setReg n (wput (s.reg n) hi lo v)

/-- BS_STAGE: the stage of start-up that runs, 7 READY, 8 RECOVERY, 9 FAILED (R372). -/
def State.stage (s : State) : Nat := s.rf Reg.BOOT_STATUS 31 28

/-- Start-up has completed stage n, or, in RECOVERY and FAILED, had completed it: a device that failed in the fuses completed none,
and BAR0 works in RECOVERY (R372–R374). -/
def State.passed (s : State) (n : Nat) : Bool := decide (n < s.stage) && !(s.stage == 9 && s.rf Reg.BOOT_STATUS 15 12 == 4)

/-- Stage 3 is complete, and every register in BAR0 can be accessed (R373). -/
def State.served (s : State) : Bool := s.passed 3

/-- What only firmware does: in RECOVERY the PCIe link, the logbook and the flash commands work, and nothing else runs (R374). -/
def State.firmware (s : State) (f : State → State) : State := if s.stage = 8 then s else f s

/-- An access to the registers: before the end of stage 3 the device serves none (R373). -/
def State.bar0 (s : State) (f : State → State) : State := if s.served then f s else s

/-- Status bits that events of this cycle have set in a register (R15). -/
def State.setNow (s : State) (n : RegNo) : Word := tget 0 s.regs.set n

/-- Events of this cycle that have advanced a counter (R16). -/
def State.cntNow (s : State) (n : RegNo) : Nat := tget 0 s.regs.cnt n

/-- Status bits set in a register by an event, which a clear of the same cycle does not undo (R15). -/
def State.setBits (s : State) (n : RegNo) (m : Nat) : State :=
  let s := s.setReg n (s.reg n ||| BitVec.ofNat 32 m)
  { s with regs := { s.regs with set := tset 0 s.regs.set n (s.setNow n ||| BitVec.ofNat 32 m) } }

/-- An event counter advanced by k, saturating at 0xFFFF_FFFF (R14); a clear of the same cycle leaves what the events
of the cycle counted (R16). -/
def State.bump (s : State) (n : RegNo) (k : Nat) : State :=
  let s := s.setReg n (BitVec.ofNat 32 (min 0xFFFFFFFF ((s.reg n).toNat + k)))
  { s with regs := { s.regs with cnt := tset 0 s.regs.cnt n (s.cntNow n + k) } }

/-- The next cycle of the clock of the registers: no status bit is set and no event counted in it yet (R15, R16). -/
def State.regCycle (s : State) : State := { s with regs := { s.regs with set := [], cnt := [] } }

/-- A quantity added to a 64-bit sum, saturating (R473). -/
def State.addPair (s : State) (lo : RegNo) (k : Nat) : State :=
  let v := min 0xFFFFFFFFFFFFFFFF ((s.reg lo).toNat + 2 ^ 32 * (s.reg (lo + 4)).toNat + k)
  (s.setReg lo (BitVec.ofNat 32 v)).setReg (lo + 4) (BitVec.ofNat 32 (v / 2 ^ 32))

/-- A PLDM sensor event goes to the event receiver, if one is set (R468). -/
def State.pldmEvent (s : State) (id : Nat) (v : Word) : State :=
  if s.mgmt.receiver.isSome then { s with mgmt := { s.mgmt with events := s.mgmt.events ++ [(id, v)] } } else s

/-- A fresh free word (log entry 2). -/
def State.takeFree (s : State) : Word × State := (Config.freeWord s.freeN, { s with freeN := s.freeN + 1 })

/-- n fresh free words. -/
def State.takeWords (s : State) (n : Nat) : List Word × State :=
  ((rangeFrom s.freeN n).map Config.freeWord, { s with freeN := s.freeN + n })

/-! ### Program slots -/

def State.slot (s : State) (k : Nat) : Slot := tget {} s.slots k
def State.setSlot (s : State) (k : Nat) (p : Slot) : State := { s with slots := tset {} s.slots k p }

/-- The slot that is RUNNING or STOPPING on the grid, if any (R356). -/
def State.running (s : State) : Option Nat :=
  (s.slots.find? fun e => e.2.state == .running || e.2.state == .stopping).map (·.1)

/-- The program on the grid runs a debug image (R267). -/
def State.debug (s : State) : Bool :=
  match s.running with
  | some k => (s.slot k).debug
  | none => false

/-- Extra cycles of a tile-store read: 1 in a debug build (R42). -/
def State.dbgN (s : State) : Nat := b2n s.debug

/-- Span number of the program on the grid; 0 with none (R63). -/
def State.spanNo (s : State) : Nat :=
  match s.running with
  | some k => (s.slot k).span.toNat
  | none => 0

/-! ### Event codes -/

namespace Ev
abbrev STRETCH : BitVec 16 := 0x0101#16
abbrev OP_CHANGE : BitVec 16 := 0x0102#16
abbrev FREEBOARD_LOW : BitVec 16 := 0x0103#16
abbrev SLUICE_SLIP : BitVec 16 := 0x0104#16
abbrev XLAT_FAULT : BitVec 16 := 0x0201#16
abbrev BANK_OFF_WRITE : BitVec 16 := 0x0202#16
abbrev ECC_CORRECTED : BitVec 16 := 0x0203#16
abbrev ECC_UNCORRECTABLE : BitVec 16 := 0x0204#16
abbrev CHECK_MISMATCH : BitVec 16 := 0x0205#16
abbrev DEADLINE_MISS : BitVec 16 := 0x0301#16
abbrev FALLBACK_TAKEN : BitVec 16 := 0x0302#16
abbrev QUEUE_HALT : BitVec 16 := 0x0303#16
abbrev LINK_DOWN : BitVec 16 := 0x0401#16
abbrev LINK_RETRY : BitVec 16 := 0x0402#16
abbrev LINK_DEGRADED : BitVec 16 := 0x0403#16
abbrev TIDE_TIMEOUT : BitVec 16 := 0x0404#16
abbrev REAM_LATE : BitVec 16 := 0x0501#16
abbrev REAM_TIMEOUT : BitVec 16 := 0x0502#16
abbrev THERMAL_DERATE : BitVec 16 := 0x0601#16
abbrev THERMAL_TRIP : BitVec 16 := 0x0602#16
abbrev POWER_CAP_ACTIVE : BitVec 16 := 0x0603#16
abbrev BALLAST_ON : BitVec 16 := 0x0604#16
abbrev AUTH_FAIL : BitVec 16 := 0x0701#16
abbrev IMAGE_REJECTED : BitVec 16 := 0x0702#16
abbrev CAL_WRITTEN : BitVec 16 := 0x0703#16
abbrev DOORBELL_REFUSED : BitVec 16 := 0x0801#16
abbrev ADMISSION_REFUSED : BitVec 16 := 0x0802#16
abbrev PREEMPT : BitVec 16 := 0x0803#16
abbrev SURPRISE_REMOVAL : BitVec 16 := 0x0804#16
abbrev HAZARD : BitVec 16 := 0x0901#16
abbrev PULP_OVERRUN : BitVec 16 := 0x0902#16
abbrev ARITH_FLAG : BitVec 16 := 0x0903#16
abbrev SCRUB_DEFERRED : BitVec 16 := 0x0A01#16
abbrev MAINT_FORCED : BitVec 16 := 0x0A02#16
abbrev SPARE_IN_USE : BitVec 16 := 0x0A03#16
abbrev LOG_CLEARED : BitVec 16 := 0x0B01#16

/-- The codes that are not reserved, with their severity: 0 info, 1 notice, 2 error, 3 fatal (R446). -/
def table : List (BitVec 16 × Nat) := [
  (STRETCH, 0), (OP_CHANGE, 1), (FREEBOARD_LOW, 1), (SLUICE_SLIP, 3), (XLAT_FAULT, 2), (BANK_OFF_WRITE, 2),
  (ECC_CORRECTED, 0), (ECC_UNCORRECTABLE, 3), (CHECK_MISMATCH, 3), (DEADLINE_MISS, 1), (FALLBACK_TAKEN, 1),
  (QUEUE_HALT, 2), (LINK_DOWN, 2), (LINK_RETRY, 0), (LINK_DEGRADED, 1), (TIDE_TIMEOUT, 2), (REAM_LATE, 0),
  (REAM_TIMEOUT, 2), (THERMAL_DERATE, 1), (THERMAL_TRIP, 3), (POWER_CAP_ACTIVE, 0), (BALLAST_ON, 0),
  (AUTH_FAIL, 2), (IMAGE_REJECTED, 2), (CAL_WRITTEN, 1), (DOORBELL_REFUSED, 1), (ADMISSION_REFUSED, 1),
  (PREEMPT, 0), (SURPRISE_REMOVAL, 2), (HAZARD, 2), (PULP_OVERRUN, 1), (ARITH_FLAG, 0), (SCRUB_DEFERRED, 1),
  (MAINT_FORCED, 1), (SPARE_IN_USE, 0), (LOG_CLEARED, 1)]

/-- A code the device can write (R446). -/
def known (c : BitVec 16) : Bool := table.any (·.1 == c)

/-- Severity of a code (R445). -/
def severity (c : BitVec 16) : Nat := ((table.find? (·.1 == c)).map (·.2)).getD 0
end Ev

/-! ### Sources (R443) -/

namespace Src
def tile (t : Nat) : Nat := t
def rank (r : Nat) : Nat := 0x900 + r
def node (k : Nat) : Nat := 0xD00 + k
def port (p : Nat) : Nat := 0xD20 + p
def fn (f : Nat) : Nat := 0xD30 + f
def slot (k : Nat) : Nat := 0xD40 + k
def sensor (k : Nat) : Nat := 0xD80 + k
def stack (k : Nat) : Nat := 0xE00 + k
def levee (k : Nat) : Nat := 0xE10 + k
end Src

/-! ### The logbook -/

/-- The rate limit of a code after power-on and cold reset (R447). -/
def LogLim.init (c : BitVec 16) : LogLim :=
  match Ev.severity c with
  | 0 => ⟨16, 100, 16, 0⟩
  | 1 => ⟨32, 10, 32, 0⟩
  | 2 => ⟨64, 1, 64, 0⟩
  | _ => ⟨0, 0, 0, 0⟩

def LogSt.lim (l : LogSt) (c : BitVec 16) : LogLim := tget (LogLim.init c) l.lims c.toNat
def LogSt.setLim (l : LogSt) (c : BitVec 16) (x : LogLim) : LogSt :=
  { l with lims := tset (LogLim.init c) l.lims c.toNat x }

/-- The lowest position holding no record, of a table sorted by position (log entry 3). -/
def firstFree : Tbl LogRec → Nat → Nat
  | [], p => p
  | (k, _) :: r, p => if k = p then firstFree r (p + 1) else p

/-- The position whose record has the lowest number among those at or below a severity (R449). -/
def victim (recs : Tbl LogRec) (sev : Nat) : Option Nat :=
  (recs.foldl (fun (b : Option (Nat × Nat)) e =>
    if e.2.sev ≤ sev then
      match b with
      | some (_, q) => if e.2.seq < q then some (e.1, e.2.seq) else b
      | none => some (e.1, e.2.seq)
    else b) none).map (·.1)

/-- The vector of a code's group (R348). -/
def logVector (c : BitVec 16) : Nat :=
  match c.toNat / 256 with
  | 0x01 => 17
  | 0x02 => 18
  | 0x0A => 18
  | 0x03 => 19
  | 0x08 => 19
  | 0x09 => 19
  | 0x04 => 20
  | 0x05 => 21
  | 0x06 => 22
  | _ => 23

/-- A vector of a function fires: its message is sent, or, while it is masked, its pending bit is set (R348). -/
def State.fire (s : State) (f v : Nat) : State :=
  let masked := (tfind s.msixMask (f * 32 + v)).isSome
  { s with irq := if masked then s.irq else tmod 0 s.irq (f * 32 + v) (· + 1),
           msixPend := if masked then tput s.msixPend (f * 32 + v) () else s.msixPend }

/-- A record written at a position, with the next sequence number (R444, R448, R449). -/
def logStore (s : State) (p : Nat) (c : BitVec 16) (src : Nat) (data : Bytes) : State :=
  let l := s.log
  let lim := l.lim c
  let rec' : LogRec := ⟨l.seqNext, c, padTo data 16, Ev.severity c, src, lim.pending⟩
  let l := { l with recs := tput l.recs p rec', seqNext := l.seqNext + 1 }
  let l := l.setLim c { lim with pending := 0, tokens := lim.tokens - 1 }
  let s := { s with log := l }
  if s.rf Reg.HIF_IRQ_SEV 1 0 ≤ Ev.severity c then s.fire 0 (logVector c) else s

/-- A record offered to the logbook when no clear runs: written, replacing, or dropped (R449). -/
def logWrite (s : State) (c : BitVec 16) (src : Nat) (data : Bytes) : State × Nat :=
  let n := s.log.seqNext
  let p := firstFree s.log.recs 0
  if p < 8192 then (logStore s p c src data, n)
  else
    match victim s.log.recs (Ev.severity c) with
    | some q => (((logStore s q c src data).setBits Reg.LOG_STATUS 4).bump Reg.LOG_OVERWRITE_COUNT 1, n)
    | none => ((s.setBits Reg.LOG_STATUS 2).bump Reg.LOG_DROP_COUNT 1, 0)

/-- An event offered to the logbook when no clear runs, with the rate limit of its code (R447, R448). The number
is that of its record, 0 when none is written. -/
def logEvent (s : State) (c : BitVec 16) (src : Nat) (data : Bytes) : State × Nat :=
  let lim := s.log.lim c
  if lim.burst = 0 ∨ 0 < lim.tokens then logWrite s c src data
  else
    let s := { s with log := s.log.setLim c { lim with pending := min 0xFFFF (lim.pending + 1) } }
    ((s.setBits Reg.LOG_STATUS 1).bump Reg.LOG_SUPP_COUNT 1, 0)

/-- An event: to the logbook, or to its staging buffer while a clear runs (R452). The number is none while the
event waits there. -/
def logTry (s : State) (c : BitVec 16) (src : Nat) (data : Bytes) (stopOf : Option Nat) : State × Option Nat :=
  if s.log.busy then
    if s.log.staging.length < 256 then
      ({ s with log := { s.log with staging := s.log.staging ++ [⟨c, src, data, stopOf⟩] } }, none)
    else ((s.setBits Reg.LOG_STATUS 2).bump Reg.LOG_DROP_COUNT 1, some 0)
  else
    let r := logEvent s c src data
    (r.1, some r.2)

/-- An event that stops nothing. -/
def State.log1 (s : State) (c : BitVec 16) (src : Nat) (data : Bytes) : State := (logTry s c src data none).1

/-! ### Stopping records -/

/-- Severity fatal: FATAL is set and the first code captured (R410, R421). -/
def noteFatal (s : State) (c : BitVec 16) : State :=
  let s := s.setBits Reg.ERR_STATUS 0x40
  if s.fatalHeld then s else { s.setReg Reg.ERR_FIRST_FATAL (c.setWidth 32) with fatalHeld := true }

/-- A record that stops a program (R410) or taints a slot (R411), which stands as the cause of the stop that its START or
RESUME runs into (log entry 64): `owner` is the slot whose data or program it concerns, none for none. -/
def State.logStop (s : State) (c : BitVec 16) (src : Nat) (data : Bytes) (owner : Option Nat) : State :=
  let s := if Ev.severity c = 3 then noteFatal s c else s
  match owner with
  | none => s.log1 c src data
  | some k =>
    let p := s.slot k
    match p.state with
    | .running =>
      match p.pendStop with
      | some _ => s.log1 c src data
      | none =>
        let r := logTry s c src data (some k)
        r.1.setSlot k { r.1.slot k with pendStop := some (c, r.2) }
    | .empty => s.log1 c src data
    | _ =>
      if Ev.severity c = 3 then
        match p.pendStop with
        | some _ => (s.log1 c src data).setBits Reg.RAS_TAINT (2 ^ k)
        | none =>
          let r := logTry s c src data (some k)
          (r.1.setSlot k { r.1.slot k with pendStop := some (c, r.2) }).setBits Reg.RAS_TAINT (2 ^ k)
      else s.log1 c src data

/-- A HAZARD record of the program on the grid, in debug builds only (R267, R475). -/
def State.hazard (s : State) (tile : Nat) (data : Bytes) : State :=
  match s.running with
  | none => s
  | some k =>
    if (s.slot k).debug then
      if (s.slot k).hazStop then s.logStop Ev.HAZARD (Src.tile tile) data (some k)
      else s.log1 Ev.HAZARD (Src.tile tile) data
    else s

end Sys2Proof.Machine
end

