-- ==== Sys2Proof/Machine/Ops.lean ====
section
/-!
DEFINITION. The named operations over tiles, registers of the control core, delayed effects, and the tile store:
its arbitration, its closed banks, its sheet checks (R40, R121–R129).
-/
namespace Sys2Proof.Machine

/-! ### Tiles -/

def State.tile (s : State) (t : Nat) : Tile := tget {} s.tiles t
def State.setTile (s : State) (t : Nat) (x : Tile) : State := { s with tiles := tset {} s.tiles t x }
def State.modTile (s : State) (t : Nat) (f : Tile → Tile) : State := s.setTile t (f (s.tile t))

/-- General register r (R239). -/
def Tile.gr (x : Tile) (r : GReg) : Word := tget 0 x.g r.val
def Tile.setGr (x : Tile) (r : GReg) (v : Word) : Tile := { x with g := tset 0 x.g r.val v }

/-- Predicate register p; p0 reads 1 (R238). -/
def Tile.pr (x : Tile) (p : PReg) : Bool := p.val = 0 || x.preds.getLsbD p.val

/-- A write of a predicate register; writes to p0 are discarded (R238). -/
def Tile.setPr (x : Tile) (p : PReg) (v : Bool) : Tile :=
  if p.val = 0 then x
  else { x with preds := BitVec.ofNat 8 (wput (x.preds.setWidth 32) p.val p.val (b2n v)).toNat }

def Tile.vr (x : Tile) (v : VReg) : List Word := (rangeFrom (v.val * 32) 32).map (tget 0 x.v)
def setLanes (t : Tbl Word) (k : Nat) : List Word → Tbl Word
  | [] => t
  | w :: r => setLanes (tset 0 t k w) (k + 1) r
def Tile.setVr (x : Tile) (v : VReg) (l : List Word) : Tile := { x with v := setLanes x.v (v.val * 32) (l.take 32) }

def Tile.arr (x : Tile) (a : Fin 2) : ArraySt := if a = 0 then x.arr0 else x.arr1
def Tile.setArr (x : Tile) (a : Fin 2) (y : ArraySt) : Tile := if a = 0 then { x with arr0 := y } else { x with arr1 := y }
def ArraySt.set (y : ArraySt) (k : Fin 2) : SetInfo := if k = 0 then y.set0 else y.set1
def ArraySt.setSet (y : ArraySt) (k : Fin 2) (i : SetInfo) : ArraySt := if k = 0 then { y with set0 := i } else { y with set1 := i }

/-- The polder of a tile (R6). -/
def polderOf (t : Nat) : Nat := t / 48 / 12 * 4 + t % 48 / 12

/-- State of polder k: 0 ACTIVE, 1 DOWN, 2 SHUT, 3 RETAIN (R227, R232). -/
def State.polder (s : State) (k : Nat) : Nat := s.rf Reg.CLK_POLDER_STATE (2 * k + 1) (2 * k)

/-- The predicate of a slot operation holds (R235, R237). -/
def State.on (s : State) (u : Site) : Bool := (s.tile u.tile.val).pr u.pred != u.neg

/-- Slots of a bundle (R234). -/
abbrev slotC : Nat := 0
abbrev slotS : Nat := 1
abbrev slotM (a : Fin 2) : Nat := 2 + a.val
abbrev slotF : Nat := 4
abbrev slotD : Nat := 5
abbrev slotV : Nat := 6
abbrev slotX : Nat := 7

/-- A control-core hazard record (R268). -/
def State.coreHaz (s : State) (tile cause slot : Nat) : State :=
  s.hazard tile (leBytes 0x05 1 ++ leBytes cause 1 ++ leBytes slot 2 ++ leBytes (s.tile tile).cur 4 ++ leBytes s.cycle 4)

/-- The outcome of R240: no effect, reported in a debug build. -/
def State.badOperand (s : State) (u : Site) (slot : Nat) : State := s.coreHaz u.tile.val 9 slot

/-- A chain stage issues to a slot in the current cycle, or has issued (R255). -/
def State.chainBusy (s : State) (t slot : Nat) : Bool :=
  let x := s.tile t
  tget 0 x.chainUse slot == s.cycle + 1 ||
    x.chains.any fun c => c.pend.any fun p => p.cyc == s.cycle && (c.stages.getD p.stage (0, 0)).1 == slot

/-- An operation of a slot: discarded when a chain stage issues to its unit in this cycle (R255). -/
def State.gate (s : State) (u : Site) (slot : Nat) (f : State → State) : State :=
  if s.on u && s.chainBusy u.tile.val slot then s.coreHaz u.tile.val 3 slot else f s

/-! ### Delayed effects -/

/-- Whether two effects write one control-core register of one tile (R239). -/
def Effect.collides : Effect → Effect → Bool
  | .gset t r _, .gset t' r' _ => t == t' && r == r'
  | .pset t p _, .pset t' p' _ => t == t' && p == p' && p.val != 0
  | _, _ => false

/-- An effect that comes into force in a cycle (R43). -/
def State.sch (s : State) (due : Nat) (e : Effect) : State := { s with sched := s.sched ++ [(due, e)] }

/-- A register write of a slot, which a debug build checks for a collision (R239). -/
def State.regW (s : State) (tile slot due : Nat) (e : Effect) : State :=
  let s := if s.sched.any (fun x => x.1 == due && x.2.collides e) then s.coreHaz tile 1 slot else s
  s.sch due e

/-- General register rd of the tile of an operation takes a value n cycles after issue. -/
def State.wr (s : State) (u : Site) (slot n : Nat) (rd : GReg) (v : Word) : State :=
  s.regW u.tile.val slot (s.cycle + n) (.gset u.tile.val rd v)

/-- Register g[r] of the tile of an operation, read in the issue cycle (R236). -/
def State.rd (s : State) (u : Site) (r : GReg) : Word := (s.tile u.tile.val).gr r

/-- Flags of a tile set in a cycle (R71, R242). -/
def State.flagAt (s : State) (tile due : Nat) (m : Byte) : State :=
  if m = 0 then s
  else if due ≤ s.cycle then s.modTile tile fun x => { x with flags := x.flags ||| m }
  else s.sch due (.flags tile m)

/-! ### Tile-store geometry (R121) -/

/-- Size of a tile store. -/
abbrev tsSize : Nat := 0x30000

/-- The bank of granule G of a tile store. -/
def bankOf (G : Nat) : Nat := (G % 32 + G / 32) % 32

/-- The granules that a run of n bytes from an address touches. -/
def granules (a n : Nat) : List Nat := if n = 0 then [] else rangeFrom (a / 8) ((a + n - 1) / 8 + 1 - a / 8)

/-- A tile-store address held in a register: below the size, aligned, with n bytes inside the store (R269). -/
def tsOk (a : Word) (align n : Nat) : Bool := a.toNat % align == 0 && a.toNat + n ≤ tsSize

def State.ts (s : State) (t a n : Nat) : Bytes := mread s.mem.ts (t * tsSize + a) n
def State.tsPut (s : State) (t a : Nat) (b : Bytes) : State :=
  { s with mem := { s.mem with ts := mwrite s.mem.ts (t * tsSize + a) b } }

def State.sheet (s : State) (t n : Nat) : SheetSt := tget {} s.mem.sheets (t * 768 + n)
def State.setSheet (s : State) (t n : Nat) (x : SheetSt) : State :=
  { s with mem := { s.mem with sheets := tset {} s.mem.sheets (t * 768 + n) x,
                               ecc := tset 0 s.mem.ecc (0x10 * 2 ^ 48 + (t * 768 + n)) 0 } }

def State.bank (s : State) (t b : Nat) : Bank := tget {} (s.tile t).banks b
def State.setBank (s : State) (t b : Nat) (x : Bank) : State :=
  s.modTile t fun y => { y with banks := tset {} y.banks b x }

/-- Bank b of a tile is closed (R129). -/
def State.closed (s : State) (t b : Nat) : Bool := (s.bank t b).closedAt.isSome

/-- Bank b is closed to a write that was accepted in a cycle: writes accepted before the bank closed complete
(R129). -/
def State.closedTo (s : State) (t b since : Nat) : Bool :=
  match (s.bank t b).closedAt with
  | some c => decide (c ≤ since)
  | none => false

/-! ### ECC (R407, R408) -/

/-- Places of R423 at which the model holds bit errors. -/
abbrev placeTs : Nat := 0x07
abbrev placeHbm : Nat := 0x08
abbrev placeRsv : Nat := 0x09
abbrev placeImem : Nat := 0x0C
abbrev placeBuf : Nat := 0x0D
abbrev placeAcc : Nat := 0x0E
abbrev placeVec : Nat := 0x0F
abbrev placeChk : Nat := 0x10
abbrev placeLevee : Nat := 0x11
abbrev placeDep : Nat := 0x12
/-- The logbook SRAM, which has no place code, its words counted from the record of number n on as 4n: its errors raise no
record -/
abbrev placeLog : Nat := 0x13

/-- The translation caches, which have no place code, by slot and 2 MiB page -/
abbrev placeXlat : Nat := 0x14

/-- Errors of an HBM codeword that the on-die ECC of its stack corrects, by codeword (R407) -/
abbrev placeDie : Nat := 0x15

/-- Memories of the tiles -/
abbrev tilePlaces : List Nat := [placeTs, placeImem, placeBuf, placeAcc, placeVec, placeChk, placeDep]

/-- Wrong bits, or wrong bytes of an HBM codeword, that the code of a place corrects (R407, R408). -/
def eccReach (place : Nat) : Nat := if place = placeHbm then 7 else 1

def eccKey (place w : Nat) : Nat := place * 2 ^ 48 + w

/-- Data bytes of an ECC or check record (R424). -/
def eccData (place unit addr : Nat) (scrub : Bool) (slot span : Nat) : Bytes :=
  leBytes place 1 ++ leBytes unit 1 ++ leBytes 0 2 ++ leBytes addr 5 ++ leBytes (b2n scrub) 1 ++ leBytes slot 1 ++
    leBytes 0 1 ++ leBytes span 4

/-- A check failure of a sheet (R406): logged, counted, and the data used as received. -/
def State.checkFail (s : State) (src place unit addr : Nat) (owner : Option Nat) : State :=
  let s := (s.setBits Reg.ERR_STATUS 8).bump Reg.ERR_CHECK_COUNT 1
  s.logStop Ev.CHECK_MISMATCH src (eccData place unit addr false (owner.getD 0xFF) s.spanNo) owner

/-- A read of word w of a memory: an error it holds is counted and logged; the data is delivered as read when it
cannot be corrected (R407–R409). -/
def State.eccRead (s : State) (place w src unit addr : Nat) (scrub : Bool) (owner : Option Nat) : State :=
  match tget 0 s.mem.ecc (eccKey place w) with
  | 0 => s
  | n =>
    if n ≤ eccReach place then
      let s := (s.setBits Reg.ERR_STATUS 2).bump Reg.ERR_CE_COUNT 1
      s.log1 Ev.ECC_CORRECTED src (eccData place unit addr scrub (owner.getD 0xFF) s.spanNo)
    else
      let s := (s.setBits Reg.ERR_STATUS 4).bump Reg.ERR_UE_COUNT 1
      s.logStop Ev.ECC_UNCORRECTABLE src (eccData place unit addr scrub (owner.getD 0xFF) s.spanNo) owner

/-- Bytes with bit k wrong. -/
def flipBit (d : Bytes) (k : Nat) : Bytes := d.set (k / 8) (d.getD (k / 8) 0 ^^^ BitVec.ofNat 8 (2 ^ (k % 8)))

/-- What the code of a hop reports of a word or flit that arrives: counted and logged by the receiving router, which hands
it on as received (R81, R175, R409). -/
def State.hopEcc (s : State) (t : Nat) (e : HopErr) (data : Bytes) : State :=
  match e with
  | .clean => s
  | .corrected => ((s.setBits Reg.ERR_STATUS 2).bump Reg.ERR_CE_COUNT 1).log1 Ev.ECC_CORRECTED (Src.tile t) data
  | .uncorrectable .. =>
    ((s.setBits Reg.ERR_STATUS 4).bump Reg.ERR_UE_COUNT 1).logStop Ev.ECC_UNCORRECTABLE (Src.tile t) data s.running

/-- A write of word w of a memory gives it fresh check bits (R408). -/
def State.eccWrite (s : State) (place w : Nat) : State :=
  { s with mem := { s.mem with ecc := tset 0 s.mem.ecc (eccKey place w) 0 } }

/-- Words of a memory from lo on that hold errors. -/
def eccMarks (s : State) (place lo n : Nat) : List Nat := (tregion s.mem.ecc (eccKey place lo) n).map fun e => lo + e.1

/-- n words of a memory from lo on are read (R408). -/
def State.eccSpan (s : State) (place lo n src unit : Nat) (owner : Option Nat) : State :=
  (eccMarks s place lo n).foldl (fun s w => s.eccRead place w src unit 0 false owner) s

/-- n words of a memory from lo on are read, each reported where it lies: source, unit and address. -/
def State.eccSweep (s : State) (place lo n : Nat) (at_ : Nat → Nat × Nat × Nat) (owner : Option Nat) : State :=
  (eccMarks s place lo n).foldl (fun s w => s.eccRead place w (at_ w).1 (at_ w).2.1 (at_ w).2.2 false owner) s

/-- n words of a memory from lo on are written (R408). -/
def State.eccFresh (s : State) (place lo n : Nat) : State :=
  { s with mem := { s.mem with ecc := dropRange s.mem.ecc (eccKey place lo) n } }

/-- The check of a sheet is read from the side array: where its word cannot be corrected the sheet becomes OPEN
(R126, R408). -/
def sheetCheckRead (t n : Nat) (s : State) : State :=
  let w := t * 768 + n
  let bad := decide (2 ≤ tget 0 s.mem.ecc (eccKey placeChk w))
  let s := s.eccRead placeChk w (Src.tile t) 0 (256 * n) false s.running
  if bad then s.setSheet t n { crc := (s.sheet t n).crc, opn := true } else s

/-! ### The deposit buffer (R39) -/

def State.dep (s : State) (t : Nat) : List DepWrite := tget [] s.mesh.deposit t
def State.setDep (s : State) (t : Nat) (l : List DepWrite) : State :=
  { s with mesh := { s.mesh with deposit := tset [] s.mesh.deposit t l } }

/-- Bytes that a deposit buffer holds, with those of the second halves it waits for. -/
def depBytes (l : List DepWrite) : Nat := l.foldl (fun n e => n + max e.size e.data.length) 0

/-- Shadow sheets that queues of a tile have asked for and that have still to come: the buffer keeps room for them (R162;
log entry 166). -/
def State.shadowsOut (s : State) (t : Nat) : Nat :=
  (List.range 8).foldl (fun n q => n + ((tget [] s.que.q (t * 8 + q)).map (·.shOut.length)).sum) 0

/-- The deposit buffer, 2 KiB, takes more bytes (R39). -/
def State.depRoom (s : State) (t n : Nat) : Bool := depBytes (s.dep t) + 256 * s.shadowsOut t + n ≤ 2048

/-! ### Accesses -/

/-- Positions of R40. -/
abbrev rkCouch : Nat := 1
abbrev rkVector : Nat := 2
abbrev rkRemove : Nat := 3
abbrev rkInject : Nat := 4
abbrev rkMesh : Nat := 5
abbrev rkSend : Nat := 6
abbrev rkColumn : Nat := 7
abbrev rkRow : Nat := 8
abbrev rkScalar : Nat := 9
abbrev rkDesc : Nat := 10

/-- Producers that seal a sheet (R126), and the writers that do not. -/
abbrev prNone : Nat := 0
abbrev prCouch : Nat := 1
abbrev prVector : Nat := 2
abbrev prRemove : Nat := 3
abbrev prCopy : Nat := 4
/-- halves of a whole sheet that arrives -/
abbrev prSheet : Nat := 8
/-- halves of a reduced line, which is sealed after both (R185) -/
abbrev prRed : Nat := 9

/-- A write accepted in a cycle (R128). -/
def Access.stamp (c : Nat) : Access → Access
  | .read t r k g d => .read t r k g d
  | .write t r k g p h _ => .write t r k g p h c

/-- Banks of a tile that accesses occupied in the cycle just over (R39). -/
def State.usedBanks (s : State) (t : Nat) : List Nat := tget [] s.mem.used t
def State.setUsed (s : State) (t : Nat) (bs : List Nat) : State := { s with mem := { s.mem with used := tset [] s.mem.used t bs } }
def State.useBanks (s : State) (t : Nat) (bs : List Nat) : State :=
  { s with mem := { s.mem with used := tset [] s.mem.used t (bs ++ s.usedBanks t) } }

/-- Granules that find a free bank-cycle, one to a bank, and those that wait (R39). -/
def splitFree : List Nat → List Nat → List Nat × List Nat
  | _, [] => ([], [])
  | used, G :: r =>
    if used.contains (bankOf G) then
      let x := splitFree used r
      (x.1, G :: x.2)
    else
      let x := splitFree (bankOf G :: used) r
      (G :: x.1, x.2)

/-- An access placed in the current cycle. -/
def State.access (s : State) (a : Access) : State :=
  { s with mem := { s.mem with acc := s.mem.acc ++ [a.stamp s.cycle] } }

/-- An access placed in a cycle, the current one or a later one. -/
def State.accessAt (s : State) (due : Nat) (a : Access) : State :=
  if due ≤ s.cycle then s.access a else s.sch due (.access (a.stamp s.cycle))

def Access.tile : Access → Nat
  | .read t _ _ _ _ => t
  | .write t _ _ _ _ _ _ => t
def Access.rank : Access → Nat
  | .read _ r _ _ _ => r
  | .write _ r _ _ _ _ _ => r
def Access.tie : Access → Nat
  | .read _ _ k _ _ => k
  | .write _ _ k _ _ _ _ => k

/-- Comes before in the order of R40, and within a tile. -/
def Access.before (a b : Access) : Bool :=
  a.tile < b.tile || (a.tile == b.tile && (a.rank < b.rank || (a.rank == b.rank && a.tie < b.tie)))

/-- Insertion after every access that does not come later. -/
def insAccess (a : Access) : List Access → List Access
  | [] => [a]
  | b :: r => if a.before b then a :: b :: r else b :: insAccess a r

/-- Accesses in the order they are served; equals keep the order they were placed in. -/
def orderAccesses (l : List Access) : List Access := l.foldl (fun acc a => insAccess a acc) []

/-- Tile-store conflict record (R475). -/
def tsHaz (cause bank rank cyc addr : Nat) : Bytes :=
  leBytes 0x07 1 ++ leBytes cause 1 ++ leBytes bank 1 ++ leBytes rank 1 ++ leBytes cyc 4 ++ leBytes addr 4

/-- MEM_STATUS bit raised by a tile (R145). -/
def State.memBit (s : State) (t m : Nat) : State :=
  (s.setBits Reg.MEM_STATUS m).modTile t fun x => { x with memBits := x.memBits ||| BitVec.ofNat 8 m }

/-- A read that meets closed banks is one event, reported with the first of its granules there (R129). -/
def offRead (s : State) (t : Nat) (gs : List Nat) : State :=
  match gs.find? fun G => s.closed t (bankOf G) with
  | some G => ((s.memBit t 2).bump Reg.MEM_OFFREAD_COUNT 1).hazard t (tsHaz 2 (bankOf G) 0 s.cycle (8 * G))
  | none => s

/-- Serving one granule of a read: the banks taken in the cycle, the state, and whether it is read: it is not where it
is lost (R40) or its bank closed (R129). -/
def serveGranule (t rank G : Nat) (taken : List Nat) (s : State) : List Nat × State × Bool :=
  let b := bankOf G
  if s.closed t b then (taken, s, false)
  else if taken.contains b then (taken, s.hazard t (tsHaz 1 b rank s.cycle (8 * G)), false)
  else (b :: taken, s.eccRead placeTs (t * 0x6000 + G) (Src.tile t) b (8 * G) false s.running, true)

/-- The granules of a list served in turn; those lost are collected. -/
def serveGranules (t rank : Nat) : List Nat → List Nat → State → List Nat → List Nat × State × List Nat
  | [], taken, s, lost => (taken, s, lost)
  | G :: r, taken, s, lost =>
    match serveGranule t rank G taken s with
    | (taken, s, true) => serveGranules t rank r taken s lost
    | (taken, s, false) => serveGranules t rank r taken s (G :: lost)

/-- Bytes of a run with zeros in the lost granules. -/
def runBytes (s : State) (t : Nat) (lost : List Nat) : Nat → Nat → Bytes
  | _, 0 => []
  | a, n + 1 => (if lost.contains (a / 8) then 0 else mget s.mem.ts (t * tsSize + a)) :: runBytes s t lost (a + 1) n

/-- The granules of runs, each once. -/
def segGranules (segs : List (Nat × Nat)) : List Nat := (segs.flatMap fun e => granules e.1 e.2).eraseDups

/-- A read served: the data of its runs in order. -/
def serveRead (t rank : Nat) (segs : List (Nat × Nat)) (taken : List Nat) (s : State) : List Nat × State × Bytes :=
  match serveGranules t rank (segGranules segs) taken (offRead s t (segGranules segs)) [] with
  | (taken, s, lost) => (taken, s, segs.flatMap fun e => runBytes s t lost e.1 e.2)

/-- A write of bytes whose granules in `lost` are not written. -/
def putRun (s : State) (t : Nat) (lost : List Nat) : Nat → Bytes → State
  | _, [] => s
  | a, b :: r =>
    let s := if lost.contains (a / 8) then s else { s with mem := { s.mem with ts := mset s.mem.ts (t * tsSize + a) b } }
    putRun s t lost (a + 1) r

/-- The check and state of a sheet after a write of a producer at an offset in it (R126). -/
def sheetWrite (x : SheetSt) (prod off : Nat) (data : Bytes) : SheetSt :=
  if prod ≠ 0 ∧ prod < 8 ∧ (off = 0 ∨ (x.prod = prod ∧ x.upto = off ∧ x.opn)) then
    let run := crc32cRun (if off = 0 then 0xFFFFFFFF#32 else x.run) data
    if off + data.length = 256 then { crc := ~~~run }
    else { x with opn := true, prod := prod, upto := off + data.length, run := run }
  else { crc := x.crc, opn := true }

/-- The check and state of the sheets that a run of a write touches, 256 bytes at most per part. -/
def sealRun (s : State) (t prod a : Nat) (data : Bytes) : Nat → State
  | 0 => s
  | fuel + 1 =>
    if data.isEmpty then s
    else
      let n := min data.length (256 - a % 256)
      let x := sheetWrite (s.sheet t (a / 256)) prod (a % 256) (data.take n)
      sealRun (s.setSheet t (a / 256) x) t prod (a + n) (data.drop n) fuel

/-- A half of an arriving sheet is written: the first leaves the sheet OPEN, the second seals it with the check that the two
halves of CHK give; data that does not match its check as it arrived is reported (R126, R176, R406). -/
def arriveHalf (s : State) (t a : Nat) (data first : Bytes) (lo hi : Nat) : State :=
  let n := a / 256
  if a % 256 < 128 then s.setSheet t n { crc := (s.sheet t n).crc, opn := true }
  else
    let c := BitVec.ofNat 32 (lo % 65536 + hi * 65536)
    let s := s.setSheet t n { crc := c }
    if crc32c (padTo first 128 ++ data) = c then s else s.checkFail (Src.tile t) placeTs 0 (256 * n) s.running

/-- A half of a reduced line is written: once both have arrived the line is sealed over what arrived (R126, R185). -/
def reducedHalf (s : State) (t a : Nat) (data : Bytes) (first : Option Bytes) : State :=
  let n := a / 256
  match if a % 256 = 0 then none else first with
  | some d => s.setSheet t n { crc := crc32c (d ++ data) }
  | none => s.setSheet t n { crc := (s.sheet t n).crc, opn := true }

/-- A dropped write at a closed bank (R129, R146). -/
def offWrite (s : State) (t bank writer q a : Nat) : State :=
  let s := (s.memBit t 4).bump Reg.MEM_OFFWRITE_COUNT 1
  s.log1 Ev.BANK_OFF_WRITE (Src.tile t)
    (leBytes bank 1 ++ leBytes writer 1 ++ leBytes q 2 ++ leBytes s.cycle 4 ++ leBytes a 4)

/-- The first closed bank, in the order of the granules, that a write accepted in a cycle meets (log entry 131). -/
def closedBank (s : State) (t : Nat) (gs : List Nat) (since : Nat) : Option Nat :=
  (gs.map bankOf).find? fun b => s.closedTo t b since

/-- The granules of a write that its closed banks concern: all of its runs, and the whole of a sheet that arrives in
halves, which is accepted as a whole (R128, R129). -/
def metGranules (prod : Nat) (segs : List (Nat × Bytes)) : List Nat :=
  if prod = prSheet then segs.flatMap fun e => granules (e.1 / 256 * 256) 256
  else segGranules (segs.map fun e => (e.1, e.2.length))

/-- Key of a sheet in `halves`. -/
def halfKey (t a : Nat) : Nat := t * 768 + a / 256

/-- What is known of the sheet, or of the reduced line, that a write brings the second half of (R128, R185). -/
def firstHalf (s : State) (t prod : Nat) (segs : List (Nat × Bytes)) : Option HalfSt :=
  let a := (segs.headD (0, [])).1
  if (prod = prSheet ∨ prod = prRed) ∧ 128 ≤ a % 256 then tfind s.mem.halves (halfKey t a) else none

/-- The first half of an arriving sheet notes how the sheet was accepted and what it brought; the second ends that. A reduced
line keeps nothing of a half that is dropped. -/
def noteHalf (t prod : Nat) (segs : List (Nat × Bytes)) (since : Nat) (dropped : Bool) (chk : Nat) (s : State) : State :=
  let e := segs.headD (0, [])
  if prod = prSheet ∨ prod = prRed then
    { s with mem := { s.mem with halves :=
        (if e.1 % 256 < 128 ∧ ¬ (prod = prRed ∧ dropped) then tput s.mem.halves (halfKey t e.1) ⟨since, dropped, chk, e.2⟩
         else tdel s.mem.halves (halfKey t e.1)) } }
  else s

/-- A write that is not dropped: its granules in arbitration, its bytes, and what becomes of its sheets, with the first half
that came before (R40, R126). -/
def putWrite (s : State) (t rank : Nat) (segs : List (Nat × Bytes)) (prod : Nat) (h : Option HalfSt) (chk : Nat) (taken : List Nat) :
    List Nat × State :=
  let gs := segGranules (segs.map fun e => (e.1, e.2.length))
  let lost := gs.filter fun G => taken.contains (bankOf G)
  let won := gs.filter fun G => !taken.contains (bankOf G)
  let s := lost.foldl (fun s G => s.hazard t (tsHaz 1 (bankOf G) rank s.cycle (8 * G))) s
  let s := won.foldl (fun s G => s.eccWrite placeTs (t * 0x6000 + G)) s
  let s := segs.foldl (fun s e => putRun s t lost e.1 e.2) s
  let s := if prod = prSheet then segs.foldl (fun s e => arriveHalf s t e.1 e.2 ((h.map (·.data)).getD []) ((h.map (·.chk)).getD chk) chk) s
    else if prod = prRed then segs.foldl (fun s e => reducedHalf s t e.1 e.2 (h.map (·.data))) s
    else segs.foldl (fun s e => sealRun s t prod e.1 e.2 (e.2.length + 1)) s
  (won.map bankOf ++ taken, s)

/-- A write served (R40, R126, R129). A write that meets a closed bank is dropped, a sheet with both its halves, as its first
half met it; `writer` names who writes in the record of the drop (R146). -/
def serveWrite (t rank : Nat) (segs : List (Nat × Bytes)) (prod chk since : Nat) (taken : List Nat) (s : State) :
    List Nat × State :=
  let h := firstHalf s t prod segs
  match h.filter fun _ => prod == prSheet with
  | some x =>
    if x.dropped then (taken, noteHalf t prod segs since true chk s)
    else putWrite (noteHalf t prod segs since false chk s) t rank segs prod h chk taken
  | none =>
    match closedBank s t (metGranules prod segs) since with
    | some b =>
      (taken, offWrite (noteHalf t prod segs since true chk s) t b (if rank = rkMesh then 2 else 0) 0 ((segs.headD (0, [])).1))
    | none => putWrite (noteHalf t prod segs since false chk s) t rank segs prod h chk taken

/-- An OPEN sheet read for export is sealed over its contents (R126); its check. -/
def exportSheet (s : State) (t n : Nat) : State × Word :=
  let s := sheetCheckRead t n s
  let x := s.sheet t n
  if x.opn then
    let c := crc32c (s.ts t (256 * n) 256)
    (s.setSheet t n { crc := c }, c)
  else (s, x.crc)

end Sys2Proof.Machine
end

