-- ==== Sys2Proof/Machine/Stop.lean ====
section
/-!
DEFINITION. Program-slot state changes (R356, R365) and the start of a pre-emption (R166, R167).
-/
namespace Sys2Proof.Machine

/-- A slot changes state: its function sees FS_SLOTCHG and its vector 16 (R348, R365). -/
def State.slotTo (s : State) (k : Nat) (st : SlotState) : State :=
  let p := s.slot k
  let s := s.setSlot k { p with state := st }
  match p.owner with
  | some f => (s.setBits (Reg.fn f.val 0) 1).fire f.val 16
  | none => s

/-- PR_STATE (R172). -/
def State.prState (s : State) : Nat := s.rf Reg.PRE_STATUS 31 29

/-- Pre-emption of the RUNNING slot starts, at a halt point of a tile or on a command; a further one joins it
(R166, R167, R172). -/
def State.startPreempt (s : State) (halt : Option Nat) : State :=
  match s.running with
  | none => s
  | some k =>
    if s.ras.hold then s
    else if (s.slot k).state = .running then
      let s := s.slotTo k .stopping
      let s := s.setSlot k { s.slot k with reqCycle := s.cycle }
      let v := wput (wput (wput (wput 0 31 29 1) 28 28 (b2n halt.isSome)) 19 16 k) 11 0 (halt.getD 0)
      s.setReg Reg.PRE_STATUS v
    else
      match halt with
      | some t =>
        if s.prState = 1 ∧ s.rf Reg.PRE_STATUS 28 28 = 1 ∧ t < s.rf Reg.PRE_STATUS 11 0 then
          s.setRf Reg.PRE_STATUS 11 0 t
        else s
      | none => s

/-- Queue q of tile t is halted (R165). -/
def State.halted (s : State) (t q : Nat) : Bool := (tfind s.que.halts (t * 8 + q)).isSome

def State.qEnts (s : State) (t q : Nat) : List QEnt := tget [] s.que.q (t * 8 + q)

/-- A phase in which the tile's engine was stopped by a halt that still holds counts, or counted, under the tag (R209). -/
def State.haltedPhase (s : State) (t tag : Nat) : Bool :=
  let p := tget ({} : Pulp) s.pulp t
  p.stopped && (s.halted t 6 || s.halted t 7) && fld (leNat p.desc) 21 16 == tag

/-- A descriptor of a halted queue of the tile names the tag (R166), or a phase does (R209). -/
def State.haltedTag (s : State) (t tag : Nat) : Bool :=
  ((List.range 8).any fun q => s.halted t q && (s.qEnts t q).any fun e => e.d.tag.val == tag) || s.haltedPhase t tag

def State.anyHalt (s : State) (t : Nat) : Bool := (List.range 8).any (s.halted t)

def State.tag (s : State) (t k : Nat) : TagSt := tget {} s.que.tags (t * 64 + k)
def State.setTag (s : State) (t k : Nat) (x : TagSt) : State :=
  { s with que := { s.que with tags := tset {} s.que.tags (t * 64 + k) x } }

/-- The tile stands at a halt point: pre-emption starts or joins (R166). -/
def State.checkHalt (s : State) (t : Nat) : State :=
  match (s.tile t).core with
  | .waitTag tag _ _ => if s.haltedTag t tag.val then s.startPreempt (some t) else s
  | .arrived _ _ => if s.anyHalt t then s.startPreempt (some t) else s
  | _ => s

/-- Waits are not left while the slot on the grid is stopping (R167 step 1). -/
def State.held (s : State) : Bool :=
  match s.running with
  | some k => (s.slot k).state == .stopping
  | none => false

/-! ### Records of one cycle (R444) -/

/-- One record goes before another of the same cycle: by code, then by source. -/
def LogRec.before (a b : LogRec) : Bool := a.code < b.code || (a.code == b.code && a.src < b.src)

/-- A record takes its place in a list by an order, after those equal to it. -/
def insRec (lt : LogRec → LogRec → Bool) (x : Nat × LogRec) : List (Nat × LogRec) → List (Nat × LogRec)
  | [] => [x]
  | y :: r => if lt x.2 y.2 then x :: y :: r else y :: insRec lt x r

def sortRecs (lt : LogRec → LogRec → Bool) (l : List (Nat × LogRec)) : List (Nat × LogRec) := l.foldl (fun o x => insRec lt x o) []

/-- The suppressed count that a record carries once its code's records stand in a new order: the first of them carries that of
the first. -/
def suppAs (old new : List (Nat × LogRec)) (x : LogRec) : Nat :=
  let first (l : List (Nat × LogRec)) : Option LogRec := (l.find? fun e => e.2.code == x.code).map (·.2)
  if (first new).map (·.seq) = some x.seq then ((first old).map (·.supp)).getD 0 else 0

/-- Records written in one cycle, `old` by number and `new` in the order of R444, with the new numbers: position, record, and the
number it had. -/
def renumbered (old new : List (Nat × LogRec)) : List (Nat × LogRec × Nat) :=
  (old.zip new).map fun e => (e.1.1, { e.2.2 with seq := e.1.2.seq, supp := suppAs old new e.2.2 }, e.2.2.seq)

/-- The number that a record has after its cycle. -/
def newSeq (l : List (Nat × LogRec × Nat)) (q : Nat) : Nat := ((l.find? fun e => e.2.2 == q).map (·.2.1.seq)).getD q

/-- What a slot keeps of the numbers of records. -/
def Slot.renumber (l : List (Nat × LogRec × Nat)) (p : Slot) : Slot :=
  { p with pendStop := p.pendStop.map fun e => (e.1, e.2.map (newSeq l)),
           ending := p.ending.map fun e => (e.1, e.2.1, e.2.2.map (newSeq l)),
           preSeq := p.preSeq.map (newSeq l) }

/-- An event entry names the record of its cause by number (R360). -/
def Compl.renumber (l : List (Nat × LogRec × Nat)) (x : Compl) : Compl := if x.ty = 1 then { x with info2 := newSeq l x.info2 } else x

/-- The records that a cycle has written, from number n on, are numbered in ascending code, then in ascending source (R444; log
entry 163). -/
def sortCycle (n : Nat) (s : State) : State :=
  if s.log.seqNext < n + 2 then s
  else
    let old := sortRecs (fun a b => a.seq < b.seq) (s.log.recs.filter fun e => decide (n ≤ e.2.seq ∧ e.2.seq < s.log.seqNext))
    let new := sortRecs LogRec.before old
    if new = old then s
    else
      let l := renumbered old new
      { s with log := { s.log with recs := l.foldl (fun t e => tput t e.1 e.2.1) s.log.recs },
               slots := s.slots.map fun e => (e.1, e.2.renumber l),
               host := { s.host with waiting := s.host.waiting.map (Compl.renumber l), held := s.host.held.map fun e => (e.1, e.2.renumber l) } }

/-- An event of the staging buffer goes before another of its cycle. -/
def LogEv.before (a b : LogEv) : Bool := a.code < b.code || (a.code == b.code && a.src < b.src)

/-- An event takes its place in a list, after those equal to it. -/
def insEv (x : LogEv) : List LogEv → List LogEv
  | [] => [x]
  | y :: r => if x.before y then x :: y :: r else y :: insEv x r

/-- The events that a cycle has added to the staging buffer, after the first n, stand in the order of R444 (R452). -/
def sortStaged (n : Nat) (s : State) : State :=
  { s with log := { s.log with staging := s.log.staging.take n ++ (s.log.staging.drop n).foldl (fun l e => insEv e l) [] } }

/-- What a cycle does, with its records in order. -/
def inOneCycle (f : State → State) (s : State) : State := sortStaged s.log.staging.length (sortCycle s.log.seqNext (f s))

end Sys2Proof.Machine
end

