-- ==== Sys2Proof/Machine/Felt.lean ====
section
/-!
DEFINITION. The Felt: loops and positions (R82–R88), injection, removal, copies, gather words and the checks of a
router in one cycle (R89–R100), and the F slot (R277–R279).
-/
namespace Sys2Proof.Machine

/-! ### Loops and positions (R82–R85) -/

/-- FS_MODE of the current span: 0 FULL, 1 HALF, 2 QUARTER, 3 POLDER (R82, R102). -/
def State.feltMode (s : State) : Nat := s.rf Reg.FELT_STATUS 1 0

/-- Routes: 0 SE→NE, 1 NW→NE, 2 NW→SW, 3 SE→SW. Per polder: FULL order and route; HALF loop and order; QUARTER
loop and order; HALF and QUARTER route (R83). -/
def routeTable : List (Nat × Nat × Nat × Nat × Nat × Nat × Nat) := [
  (0, 0, 0, 0, 0, 0, 0), (1, 1, 0, 1, 0, 1, 2), (2, 1, 1, 0, 1, 0, 0), (3, 2, 1, 1, 1, 1, 2),
  (15, 0, 0, 7, 0, 3, 0), (10, 3, 0, 2, 0, 2, 2), (9, 3, 1, 7, 1, 3, 0), (4, 2, 1, 2, 1, 2, 2),
  (14, 0, 0, 6, 2, 0, 0), (11, 2, 0, 3, 2, 1, 2), (8, 0, 1, 6, 3, 0, 0), (5, 2, 1, 3, 3, 1, 2),
  (13, 0, 0, 5, 2, 3, 0), (12, 2, 0, 4, 2, 2, 2), (7, 0, 1, 5, 3, 3, 0), (6, 2, 1, 4, 3, 2, 2)]

def polderRow (p : Nat) : Nat × Nat × Nat × Nat × Nat × Nat × Nat := routeTable.getD p (0, 0, 0, 0, 0, 0, 0)

/-- Loop, order in the loop and route of a polder in a mode (R83). -/
def polderPath (mode p : Nat) : Nat × Nat × Nat :=
  match polderRow p with
  | (fo, fr, hl, ho, ql, qo, r) =>
    match mode with
    | 0 => (0, fo, fr)
    | 1 => (hl, ho, r)
    | 2 => (ql, qo, r)
    | _ => (p, 0, 0)

/-- Route index in FULL, HALF and QUARTER modes (R84). -/
def routeIndex (a b route : Nat) : Nat :=
  let flip := route = 0 ∨ route = 3
  let a := if flip then 11 - a else a
  let b := if flip then 11 - b else b
  if route = 2 ∨ route = 0 then 12 * a + (if a % 2 = 1 then 11 - b else b)
  else 12 * b + (if b % 2 = 1 then 11 - a else a)

/-- Index on the loop of a polder in POLDER mode (R84). -/
def polderCycleIndex (a b : Nat) : Nat :=
  if a = 0 then b
  else if b = 0 then 144 - a
  else 12 + 11 * (a - 1) + (if a % 2 = 1 then 11 - b else b - 1)

/-- Tiles per loop and loop latency of a mode (R82). -/
def loopTiles (mode : Nat) : Nat :=
  match mode with
  | 0 => 2304
  | 1 => 1152
  | 2 => 576
  | _ => 144
def loopLen (mode : Nat) : Nat := if mode = 3 then 144 else loopTiles mode + 6 * (loopTiles mode / 144)

/-- Loop and position of a tile (R85). -/
def feltPos (mode t : Nat) : Nat × Nat :=
  let a := t / 48 % 12
  let b := t % 48 % 12
  if mode = 3 then (polderOf t, polderCycleIndex a b)
  else
    match polderPath mode (polderOf t) with
    | (l, k, r) => (l, 144 * k + routeIndex a b r)

/-- Delay from position 0 to a position (R85). -/
def feltDelay (mode p : Nat) : Nat := if mode = 3 then p else p + 6 * (p / 144)

/-- Slot phase at a tile in a cycle (R88). -/
def feltPhase (mode t c : Nat) : Nat :=
  let L := loopLen mode
  (c + L - feltDelay mode (feltPos mode t).2) % L

/-- CRC-4 of a word's DATA (R98). -/
def crc4Go : Nat → Nat → Nat → Nat
  | c, _, 0 => c
  | c, d, n + 1 =>
    let fb := (c / 8 + d) % 2
    crc4Go ((2 * c) % 16 ^^^ (if fb = 1 then 3 else 0)) (d / 2) n
def crc4 (d : Bytes) : BitVec 4 := BitVec.ofNat 4 (crc4Go 0 (leNat d) 256)

/-! ### Words on the lanes -/

def FeltWord.at (w : FeltWord) (loop : Nat) (lane : Fin 4) (phase : Nat) : Bool :=
  w.loop == loop && w.lane == lane && w.phase == phase

/-- The word at a tile on a lane in the current cycle. -/
def State.feltAt (s : State) (t : Nat) (lane : Fin 4) : Option FeltWord :=
  let m := s.feltMode
  s.felt.words.find? fun w => w.at (feltPos m t).1 lane (feltPhase m t s.cycle)

def State.feltDrop (s : State) (t : Nat) (lane : Fin 4) : State :=
  let m := s.feltMode
  { s with felt := { s.felt with
    words := s.felt.words.filter fun w => !w.at (feltPos m t).1 lane (feltPhase m t s.cycle) } }

def State.feltPlace (s : State) (w : FeltWord) : State := { s with felt := { s.felt with words := s.felt.words ++ [w] } }

/-- Counter slots of a tile's Felt events: 0 collisions, 1 empties, 2 discards. -/
abbrev feCollide : Nat := 0
abbrev feEmpty : Nat := 1
abbrev feDiscard : Nat := 2

/-- A Felt event of a tile: its status bit and its count are reported at the end of the span (R102). -/
def State.feltEvent (s : State) (t bit k : Nat) : State :=
  s.modTile t fun x => { x with
    feltBits := x.feltBits ||| BitVec.ofNat 8 bit, feltCnt := tmod 0 x.feltCnt k (· + 1) }

/-- HAZARD of the Felt (R101): 1 collision, 2 empty or wrong kind, 3 word during a wait, 4 removal list full. -/
def State.feltHaz (s : State) (t lane cause : Nat) : State :=
  s.hazard t (leBytes 0x01 1 ++ leBytes lane 1 ++ leBytes cause 2 ++ leBytes s.cycle 4)

/-- FS_COLLIDE (R91). -/
def State.feltCollide (s : State) (t lane : Nat) : State := (s.feltEvent t 0x80 feCollide).feltHaz t lane 1
/-- FS_EMPTY (R99). -/
def State.feltEmpty (s : State) (t lane : Nat) : State := (s.feltEvent t 0x40 feEmpty).feltHaz t lane 2

/-- A check that fails on the belt (R100, R101, R406). -/
def State.feltMismatch (s : State) (t lane kind phase : Nat) : State :=
  let s := (s.setBits Reg.ERR_STATUS 8).bump Reg.ERR_CHECK_COUNT 1
  let s := s.modTile t fun x => { x with feltBits := x.feltBits ||| 0x20 }
  s.logStop Ev.CHECK_MISMATCH (Src.tile t)
    (leBytes 0x01 1 ++ leBytes lane 1 ++ leBytes kind 2 ++ leBytes phase 4 ++ leBytes s.cycle 4) s.running

/-- A word of a lane with bit k of its 272 wrong (R78); a bit above is one of the hop's code. -/
def FeltWord.flip (w : FeltWord) (k : Nat) : FeltWord :=
  if k < 256 then { w with data := flipBit w.data k }
  else if k < 264 then { w with scale := w.scale ^^^ BitVec.ofNat 8 (2 ^ (k - 256)) }
  else if k < 268 then { w with chk := w.chk ^^^ BitVec.ofNat 4 (2 ^ (k - 264)) }
  else if k = 268 then { w with sw := !w.sw }
  else if k = 269 then { w with first := !w.first }
  else if k < 272 then { w with kind := w.kind ^^^ BitVec.ofNat 2 (2 ^ (k - 270)) }
  else w

/-- The word at a tile on a lane goes on as received, with two bits wrong; KIND 0 makes the slot an empty one (R79, R81). -/
def State.feltDamage (s : State) (t : Nat) (lane : Fin 4) (a b : Nat) : State :=
  let m := s.feltMode
  { s with felt := { s.felt with words := (s.felt.words.map fun w =>
      if w.at (feltPos m t).1 lane (feltPhase m t s.cycle) then (w.flip a).flip b else w).filter (·.kind != 0) } }

/-- A hop brings a word of a lane with a bit error: corrected, or not correctable, and the word goes on as received (R81,
R101). -/
def State.feltEcc (s : State) (t : Nat) (lane : Fin 4) (e : HopErr) : State :=
  let s := s.hopEcc t e (leBytes 0x01 1 ++ leBytes lane.val 1 ++ leBytes 0 2 ++ leBytes s.cycle 4)
  match e with
  | .uncorrectable a b => s.feltDamage t lane a b
  | _ => s

/-- A word lost at a shut seam or found at a boundary (R87, R229). -/
def State.feltDiscard (s : State) (t : Nat) : State := s.feltEvent t 0x10 feDiscard

/-! ### Checks (R98–R100) -/

/-- The words of a sheet that a tile has used, once it uses another: a word used again takes the place of its earlier use. -/
def FeltRun.use (r : FeltRun) (c : Nat) (w : FeltWord) : FeltRun :=
  { r with words := r.words.filter (fun e => e.1 != w.sheet.2) ++ [(w.sheet.2, w)], cyc := c }

/-- The eight words of a sheet that a tile has used stand in eight consecutive slots in their order and fit the sheet's check
(R80, R100). -/
def FeltRun.holds (L : Nat) (r : FeltRun) : Bool :=
  let ws := (List.range 8).filterMap fun n => (r.words.find? fun e => e.1 == n).map (·.2)
  let chk := BitVec.ofNat 32 ((ws.zipIdx.map fun p => p.1.chk.toNat * 2 ^ (4 * p.2)).foldl (· + ·) 0)
  let base := (ws.head?.map (·.phase)).getD 0
  ws.zipIdx.all (fun p => p.1.phase == (base + p.2) % L) && crc32c (ws.flatMap (·.data)) == chk

/-- One step of a tile's verification of the sheets on a lane: a sheet word that it taps, copies or removes in this cycle. A
sheet is verified when all eight of its words were used within a turn of the loop (log entry 6). The record of a failure
names the slot phase of the word used first (log entry 132). -/
def sheetStep (s : State) (t : Nat) (lane : Fin 4) (own : Bool) (w : FeltWord) : State :=
  let mine := fun (r : FeltRun) => r.tile == t && r.lane == lane && r.own == own && r.sheet == w.sheet.1
  let recent := s.felt.runs.filter fun r => decide (s.cycle < r.cyc + loopLen s.feltMode)
  let r := ((recent.find? mine).getD ⟨t, lane, w.sheet.1, [], s.cycle, own⟩).use s.cycle w
  let others := recent.filter fun r => !mine r
  if r.words.length < 8 then { s with felt := { s.felt with runs := others ++ [r] } }
  else
    let s := { s with felt := { s.felt with runs := others } }
    if r.holds (loopLen s.feltMode) then s
    else s.feltMismatch t lane.val 1 ((r.words.head?.map (·.2.phase)).getD 0)

/-- A word used at a tile is checked: a sheet word with its sheet, another word by its CRC-4 (R100). `own` tells words
that the tile itself placed in this cycle from those that arrived. -/
def feltVerify (s : State) (t : Nat) (lane : Fin 4) (own : Bool) (w : FeltWord) : State :=
  if w.kind = 1 then sheetStep s t lane own w
  else if crc4 w.data = w.chk then s else s.feltMismatch t lane.val w.kind.toNat w.phase

/-! ### One router, one lane, one cycle (R89) -/

/-- Automatic removals due at the router in this cycle: the word they were noted for is checked and taken off its slot
(R90, R100; log entry 164). They come before a felt.remove of the cycle (log entry 133). -/
def autoRemove (t : Nat) (lane : Fin 4) (s : State) : State :=
  if s.felt.removals.any fun r => r.tile == t && r.lane == lane && r.cyc == s.cycle then
    let s := { s with felt := { s.felt with
      removals := s.felt.removals.filter fun r => !(r.tile == t && r.lane == lane && r.cyc == s.cycle) } }
    match s.feltAt t lane with
    | some w => if w.till = some (t, s.cycle) then (feltVerify s t lane false w).feltDrop t lane else s
    | none => s
  else s

/-- The write of a copied or removed word: it occupies the store in cycle t + 2 (R279). -/
def takeWrite (t : Nat) (k : FeltTake) (data : Bytes) (s : State) : State :=
  match k.addr with
  | some a =>
    s.accessAt (s.cycle + 2) (.write t rkRemove k.lane.val [(a, data)] (if k.remove then prRemove else prCopy) 0)
  | none => s

def takesAt (t : Nat) (lane : Fin 4) (rem : Bool) (s : State) : List FeltTake :=
  s.felt.takes.filter fun k => k.tile == t && k.lane == lane && k.cyc == s.cycle && k.remove == rem

/-- felt.remove of the word at the tile (R92, R99). -/
def doRemove (t : Nat) (lane : Fin 4) (s : State) : State :=
  match takesAt t lane true s with
  | [] => s
  | k :: _ =>
    let s := { s with felt := { s.felt with takes := s.felt.takes.filter (· != k) } }
    match s.feltAt t lane with
    | none => s.feltEmpty t lane.val
    | some w => (takeWrite t k w.data (feltVerify s t lane false w)).feltDrop t lane

def injBefore (a b : FeltInj) : Bool := a.prio < b.prio

def injsAt (t : Nat) (lane : Fin 4) (s : State) : List FeltInj :=
  s.felt.inj.filter fun k => k.tile == t && k.lane == lane && k.cyc == s.cycle

/-- The injection that goes first (R89). -/
def firstInj : List FeltInj → Option FeltInj
  | [] => none
  | k :: r =>
    match firstInj r with
    | some b => if injBefore b k then some b else some k
    | none => some k

/-- A tile stands in a wait or at the tide. -/
def CoreState.waits : CoreState → Bool
  | .waitTag .. => true
  | .waitAll _ => true
  | .waitCyc .. => true
  | .arrived .. => true
  | _ => false

/-- Tiles of a loop that stand in waits while a word is placed on one of its lanes are reported in debug builds (R86,
R87; log entry 63). -/
def State.placedInWait (s : State) (loop lane : Nat) : State :=
  if s.debug then
    s.tiles.foldl (fun s e => if e.2.core.waits && (feltPos s.feltMode e.1).1 == loop then s.feltHaz e.1 lane 3 else s) s
  else s

/-- A word placed on an empty slot; with REVS from 1 to 15 the router notes its removal. A word that needs a place in the
list, and one of a felt.inject in any case, is not placed where the list is full (R90). -/
def placeWord (t : Nat) (k : FeltInj) (s : State) : State :=
  let m := s.feltMode
  let n := (s.felt.removals.filter fun r => r.tile == t && r.lane == k.lane).length
  if (k.revs ≠ 0 ∨ k.prio = 2) ∧ 32 ≤ n then s.feltHaz t k.lane.val 4
  else
    let s := s.feltPlace ⟨(feltPos m t).1, k.lane, feltPhase m t s.cycle, k.kind, k.first, k.sw, k.chk, k.scale, k.data,
      if k.revs = 0 then none else some (t, s.cycle + k.revs * loopLen m), k.sheet⟩
    let s := s.placedInWait (feltPos m t).1 k.lane.val
    if k.revs = 0 then s
    else { s with felt := { s.felt with removals := s.felt.removals ++ [⟨t, k.lane, s.cycle + k.revs * loopLen m⟩] } }

/-- The injections of this cycle: the first unit takes an empty slot, every other collides (R89, R91). -/
def doInject (t : Nat) (lane : Fin 4) (s : State) : State :=
  let ks := injsAt t lane s
  match firstInj ks with
  | none => s
  | some k =>
    let s := { s with felt := { s.felt with
      inj := s.felt.inj.filter fun j => !(j.tile == t && j.lane == lane && j.cyc == s.cycle) } }
    let n := if (s.feltAt t lane).isSome then ks.length else ks.length - 1
    let s := if (s.feltAt t lane).isSome then s else placeWord t k s
    (List.range n).foldl (fun s _ => s.feltCollide t lane.val) s

/-- felt.copy of the word at the tile; an empty slot delivers zeros (R92, R99). -/
def doCopy (t : Nat) (lane : Fin 4) (own : Bool) (s : State) : State :=
  match takesAt t lane false s with
  | [] => s
  | k :: _ =>
    let s := { s with felt := { s.felt with takes := s.felt.takes.filter (· != k) } }
    match s.feltAt t lane with
    | none => takeWrite t k (List.replicate 32 0) (s.feltEmpty t lane.val)
    | some w => takeWrite t k w.data (feltVerify s t lane own w)

/-- Sums of the eight values of a gather word with a tile's values, and the flags (R97). -/
def gatherAdd (data : Bytes) (y : List Word) : List Word × Nat :=
  let rs := ((toWords data).zip y).map fun p =>
    let r := accumulate (some p.1.toNat) (unpack fp32 p.2.toNat)
    (BitVec.ofNat 32 r.1, (if r.2 &&& AF.AOF ≠ 0 then AF.OF else 0) ||| (if r.2 &&& AF.ANAN ≠ 0 then AF.NV else 0))
  (rs.map (·.1), rs.foldl (fun f r => f ||| r.2) 0)

/-- The gather rows due at a tile in this cycle act on a lane: the sum, or nothing where no gather word passes
(R97, R99). The lane's values after the addition are kept with the row of a gather-end. -/
def gatherLane (t : Nat) (lane : Fin 4) (g : FeltGather) (s : State) : FeltGather × State :=
  let y := (g.y.drop (8 * lane.val)).take 8
  match s.feltAt t lane with
  | some w =>
    if w.kind = 3 then
      let s := feltVerify s t lane false w
      let r := gatherAdd w.data y
      let s := s.flagAt t s.cycle (BitVec.ofNat 8 r.2)
      let d := fromWords r.1
      let s := s.feltDrop t lane
      let s := if g.ending then s else s.feltPlace { w with data := d, chk := crc4 d }
      ({ g with got := tput g.got lane.val r.1 }, s)
    else ({ g with got := tput g.got lane.val (List.replicate 8 0) }, s.feltEmpty t lane.val)
  | none => ({ g with got := tput g.got lane.val (List.replicate 8 0) }, s.feltEmpty t lane.val)

def gatherDue (t : Nat) (lane : Fin 4) (s : State) (g : FeltGather) : Bool :=
  g.tile == t && g.cyc == s.cycle && (tfind g.got lane.val).isNone

/-- The gather additions and ends of this cycle on a lane. -/
def doGather (t : Nat) (lane : Fin 4) (s : State) : State :=
  match s.felt.gathers.find? (gatherDue t lane s) with
  | none => s
  | some g =>
    let r := gatherLane t lane g s
    { r.2 with felt := { r.2.felt with gathers := r.2.felt.gathers.map fun h => if h = g then r.1 else h } }

/-! ### F slot (R277–R279) -/

/-- The lanes that LMASK selects, upwards, with their number k. -/
def lanesOf (m : BitVec 4) : List (Fin 4 × Nat) :=
  (([0, 1, 2, 3] : List (Fin 4)).filter fun l => m.getLsbD l.val).zipIdx

/-- felt.inject (R278): one read per lane and one of the scale bytes; the words reach the head at t + 5. -/
def opFeltInject (u : Site) (lmask revs : BitVec 4) (ra rs : GReg) (sc sw : Bool) (s : State) : State :=
  if s.on u then
    let t := u.tile.val
    let ls := lanesOf lmask
    let a := s.rd u ra
    let b := s.rd u rs
    if tsOk a 32 (32 * ls.length) && (!sc || tsOk b 1 ls.length) then
      let due := s.cycle + 5 + s.dbgN
      let s := ls.foldl (fun s l =>
        let addr := a.toNat + 32 * l.2
        let n := addr / 32 % 8
        let e := if sw then (s, 0) else exportSheet s t (addr / 256)
        let slice : Option (BitVec 4) := if sw then none else some (BitVec.ofNat 4 (wfld e.2 (4 * n + 3) (4 * n)))
        e.1.access (.read t rkInject 0 [(addr, 32)] (.felt l.1 revs.toNat (if sw then 2 else 1) (!sw && n == 0) sw slice due))) s
      if sc then s.access (.read t rkInject 1 [(b.toNat, ls.length)] (.feltScale (ls.map (·.1)) due)) else s
    else s.badOperand u slotF
  else s

/-- felt.remove and felt.copy: the action on each selected lane in this cycle (R279). -/
def feltTake (u : Site) (lmask : BitVec 4) (rem wr : Bool) (ra : GReg) (s : State) : State :=
  if s.on u then
    let ls := lanesOf lmask
    let a := s.rd u ra
    if !wr || tsOk a 32 (32 * ls.length) then
      { s with felt := { s.felt with takes := s.felt.takes ++ ls.map fun l =>
        ⟨u.tile.val, l.1, s.cycle, rem, if wr then some (a.toNat + 32 * l.2) else none⟩ } }
    else s.badOperand u slotF
  else s

def opFeltRemove (u : Site) (lmask : BitVec 4) (wr : Bool) (ra : GReg) (s : State) : State := feltTake u lmask true wr ra s
def opFeltCopy (u : Site) (lmask : BitVec 4) (ra : GReg) (s : State) : State := feltTake u lmask false true ra s

def execFeltInject (u : Site) (lmask revs : BitVec 4) (ra rs : GReg) (sc sw : Bool) (s : State) : Res :=
  if lmask = 0 then .refused .reservedEncoding else .next (opFeltInject u lmask revs ra rs sc sw s)
def execFeltRemove (u : Site) (lmask : BitVec 4) (wr : Bool) (ra : GReg) (s : State) : Res :=
  if lmask = 0 then .refused .reservedEncoding else .next (opFeltRemove u lmask wr ra s)
def execFeltCopy (u : Site) (lmask : BitVec 4) (ra : GReg) (s : State) : Res :=
  if lmask = 0 then .refused .reservedEncoding else .next (opFeltCopy u lmask ra s)
/-- FELT_AUTO_REMOVE (R90). -/
def execFeltAutoRemove (t : TileId) (lane : Fin 4) (s : State) : Res := .next (autoRemove t.val lane s)

/-- A wait that is not satisfied while the tile's loop holds a word is reported once per lane (R86, R87). -/
def State.waitWords (s : State) (t : Nat) : State :=
  ([0, 1, 2, 3] : List (Fin 4)).foldl (fun s l =>
    if s.felt.words.any fun w => w.loop == (feltPos s.feltMode t).1 && w.lane == l then s.feltHaz t l.val 3 else s) s

end Sys2Proof.Machine
end

