-- ==== Sys2Proof/Machine/Array.lean ====
section
/-!
DEFINITION. The arrays, their feeders and their accumulator sets (R30–R34, R44, R45, R52–R56, R270–R276), the taps
of the Felt (R93–R96), and the whole of one router's cycle (R89).
-/
namespace Sys2Proof.Machine

/-! ### Configuration word (R271) -/

def acL (w : Word) : Nat := wfld w 31 28
def acR (w : Word) : Nat := wfld w 27 24
def acK (w : Word) : Nat := 32 * (wfld w 23 13 + 1)
def acFelt (w : Word) : Bool := w.getLsbD 12
def acLane (w : Word) : Nat := wfld w 11 10
def acTurn (w : Word) : Bool := w.getLsbD 9
def acSLane (w : Word) : Nat := wfld w 8 7
def acSoff (w : Word) : Nat := wfld w 6 2
def acLT (w : Word) : Bool := w.getLsbD 1
def acRT (w : Word) : Bool := w.getLsbD 0

/-- The format pair is accepted (R52). -/
def pairOk (l r : Nat) : Bool := (l < 8 && r < 8) || (is16bit l && is16bit r)

/-- Array cycles per block of 32 K steps (R30, R52). -/
def blockCycles (l r : Nat) : Nat := if is16bit l then 128 else if l = 6 && r = 6 then 16 else 32

/-- Cycles between two words of a feeder whose operand has format f in a pair with o (R273). -/
def feederG (f o : Nat) : Nat := if is16bit f then 2 else if f = 6 && o != 6 then 2 else 1

/-- Feeder words per block of 32 K steps. -/
def blockWords (f : Nat) : Nat := if is16bit f then 64 else if f = 6 then 16 else 32

def acB (w : Word) : Nat := acK w / 32
/-- Kc (R30). -/
def acKc (w : Word) : Nat := acB w * blockCycles (acL w) (acR w)

/-- Extra cycles of array events: the turn buffer and a debug build (R274). -/
def Stream.late (st : Stream) : Nat := (if acTurn st.cfg then 33 else 0) + st.dbg

/-- The cycle the set is ready (R42, R274). -/
def Stream.ready (st : Stream) : Nat := st.issue + 74 + acKc st.cfg + st.late

/-- Array cycle of the last K step of block q. -/
def Stream.uEnd (st : Stream) (q : Nat) : Nat := (q + 1) * blockCycles (acL st.cfg) (acR st.cfg) - 1

/-- Block q of an ended stream is counted when its last K step at cell (0,0) falls before the end (R33). -/
def Stream.counts (st : Stream) (q : Nat) : Bool :=
  match st.endedAt with
  | none => true
  | some e => decide (st.issue + 6 + st.uEnd q + st.late < e)

/-- The cycle block q is rounded into cell (i, j) (R274; log entry 7). -/
def Stream.rounded (st : Stream) (q i j : Nat) : Nat := st.issue + 12 + st.uEnd q + i + j + st.late

/-! ### Operands of a block -/

def byteAt (b : Bytes) (k : Nat) : Nat := (b.getD k 0).toNat

/-- Word w of an operand buffer of 256 entries, group g of a transposed read in it, and the scales of block q in a
scale buffer of 256 bytes (R34). -/
def bufWord (ws : Tbl Bytes) (w : Nat) : Bytes := tget [] ws (w % 256)
def bufGroup (ws : Tbl Bytes) (g : Nat) : Bytes := tget [] ws (g % 32)
def bufScale (t : Tbl Bytes) (q : Nat) : Bytes := tget [] t (q % 8)

/-- Element bits of column or row x in K step k, from plain words (R273). -/
def plainElem (f : Nat) (ws : Tbl Bytes) (k x : Nat) : Nat :=
  if is16bit f then leAt (bufWord ws (2 * k + x / 16)) (2 * (x % 16)) 2
  else if f = 6 then
    let b := byteAt (bufWord ws (k / 2)) (16 * (k % 2) + x / 2)
    if x % 2 = 0 then b % 16 else b / 16
  else byteAt (bufWord ws k) x

/-- Element bits through the turn buffer: byte c of word 32q + j in K step 32q + c (R96). -/
def turnElem (ws : Tbl Bytes) (k x : Nat) : Nat := byteAt (bufWord ws (32 * (k / 32) + x)) (k % 32)

/-- Element bits from transposed reads: position of step k in its source block, of source word x (R123, R273). -/
def transElem (f : Nat) (ws : Tbl Bytes) (k x : Nat) : Nat :=
  let per := 64 / elemBits f
  let g := bufGroup ws (k / per)
  let e := k % per
  if f = 6 then
    let b := byteAt g (8 * x + e / 2)
    if e % 2 = 0 then b % 16 else b / 16
  else if is16bit f then leAt g (8 * x + 2 * e) 2
  else byteAt g (8 * x + e)

def Stream.leftBits (st : Stream) (k i : Nat) : Nat :=
  if acLT st.cfg then transElem (acL st.cfg) st.lw k i else plainElem (acL st.cfg) st.lw k i

def Stream.rightBits (st : Stream) (k j : Nat) : Nat :=
  if acRT st.cfg then transElem (acR st.cfg) st.rw k j
  else if acTurn st.cfg then turnElem st.rw k j
  else plainElem (acR st.cfg) st.rw k j

/-- Block scale byte of row or column x in block q; 127 for a format without one (R53). -/
def scaleOf (f : Nat) (t : Tbl Bytes) (q x : Nat) : Nat := if isMx f then byteAt (bufScale t q) x else 127

/-- Value of block q at cell (i, j) (R53, R55). -/
def Stream.blockAt (st : Stream) (q i j : Nat) : FV × Nat :=
  let ks := rangeFrom (32 * q) 32
  blockValue (ks.map fun k => elemVal (acL st.cfg) (st.leftBits k i)) (ks.map fun k => elemVal (acR st.cfg) (st.rightBits k j))
    (scaleOf (acL st.cfg) st.ls q i) (scaleOf (acR st.cfg) st.rs q j)

/-- Blocks from q on added into a cell, while they count and `stop` does not hold; contents and flags (R53, R54). -/
def Stream.addBlocks (st : Stream) (stop : Nat → Bool) (i j : Nat) (acc : Nat) (fl : Nat) (q : Nat) : Nat → Nat × Nat
  | 0 => (acc, fl)
  | n + 1 =>
    if stop q || !st.counts q then (acc, fl)
    else
      let v := st.blockAt q i j
      let r := accumulate (if q = 0 && !st.cont then none else some acc) v.1
      st.addBlocks stop i j r.1 (fl ||| v.2 ||| r.2) (q + 1) n

/-- Contents of a cell after the blocks rounded before a cycle, all counted blocks with no cycle; the blocks added
already are in it. -/
def Stream.cell (st : Stream) (before : Option Nat) (i j acc : Nat) : Nat × Nat :=
  let stop := fun q => match before with
    | some c => c ≤ st.rounded q i j
    | none => false
  st.addBlocks stop i j acc 0 st.folded (acB st.cfg - st.folded)

/-- Number of an accumulator. -/
def accKey (arr set : Fin 2) (i j : Nat) : Nat := ((arr.val * 2 + set.val) * 32 + i) * 32 + j

/-- Every block of the stream that counts is rounded into cell (i, j) before a cycle. -/
def Stream.past (st : Stream) (i j c : Nat) : Bool :=
  (List.range (acB st.cfg)).all fun q => !st.counts q || decide (st.rounded q i j < c)

/-- Contents of a cell with what streams of its set have rounded before a cycle, oldest stream first: one adds nothing before
those issued earlier have added all they add (R54, R57). -/
def cellStreams (i j c : Nat) : Nat → List Stream → Nat
  | a, [] => a
  | a, st :: r => if st.past i j c then cellStreams i j c (st.cell (some c) i j a).1 r else (st.cell (some c) i j a).1

/-- Accumulator (i, j) of a set as a read in a cycle finds it: streams not yet committed add what they have rounded
(R33, R42). -/
def cellNow (x : Tile) (arr set : Fin 2) (i j c : Nat) : Word :=
  BitVec.ofNat 32 (cellStreams i j c (tget 0 x.acc (accKey arr set i j)).toNat ((x.arr arr).streams.filter fun st => st.set == set))

/-- Words of the accumulators of a set, and of entry e of an operand buffer, among the memories of R408. -/
def accWord (t : Nat) (arr set : Fin 2) (i j : Nat) : Nat := t * 4096 + accKey arr set i j
def bufKey (t : Nat) (arr : Fin 2) (right : Bool) (e : Nat) : Nat := ((t * 2 + arr.val) * 2 + b2n right) * 1024 + 4 * e

/-- The entries of a feeder's buffer that block q occupies (R34), in words of 8 bytes: the first and their number. -/
def blockEntries (tr : Bool) (f q : Nat) : Nat × Nat :=
  if tr then (4 * (q * (elemBits f / 2) % 32 * 8), 4 * (elemBits f / 2) * 8) else (4 * (q * blockWords f % 256), 4 * blockWords f)

/-- The operand buffers are read for a block (R408). -/
def bufRead (t : Nat) (arr : Fin 2) (st : Stream) (q : Nat) (s : State) : State :=
  let side (right : Bool) (tr : Bool) (f : Nat) (s : State) : State :=
    let e := blockEntries tr f q
    s.eccSpan placeBuf (bufKey t arr right 0 + e.1) e.2 (Src.tile t) arr.val s.running
  side true (acRT st.cfg) (acR st.cfg) (side false (acLT st.cfg) (acL st.cfg) s)

/-! ### Power (R44, R45, R276) -/

/-- The array runs streams in a cycle. -/
def Pwr.isOn (p : Pwr) (c : Nat) : Bool :=
  match p with
  | .on => true
  | .exiting d => d ≤ c
  | _ => false

/-- The state a power switch names is off. -/
def Pwr.namesOff (p : Pwr) : Bool :=
  match p with
  | .off => true
  | .entering .. => true
  | _ => false

/-- HAZARD of the arrays (R475). -/
def State.arrHaz (s : State) (t cause : Nat) (arr set : Fin 2) : State :=
  s.hazard t (leBytes 0x06 1 ++ leBytes cause 1 ++ leBytes arr.val 1 ++ leBytes set.val 1 ++ leBytes s.cycle 4)

/-- Accumulators of an array cleared. -/
def clearAcc (t : Tbl Word) (arr : Fin 2) : Tbl Word := t.filter fun e => e.1 / 2048 != arr.val

/-! ### mm.stream (R274, R275) -/

/-- A tile-store feeder's addresses are aligned and in range (R273, R275). -/
def feederOk (f : Nat) (tr : Bool) (a sc : Word) : Bool :=
  tsOk a (if tr then 1024 else 32) 32 && (!isMx f || tsOk sc 32 32)

/-- The stream has an effect: none of the cases of R275 holds. -/
def streamOk (w : Word) (l ls r rs : Word) : Bool :=
  pairOk (acL w) (acR w) &&
  !(acTurn w && (!is8bit (acR w) || acRT w)) &&
  !(acRT w && acFelt w) &&
  !(acFelt w && acR w == 6 &&
    ((acSLane w == acLane w && feederG (acR w) (acL w) == 1) || blockCycles (acL w) (acR w) ≤ acSoff w)) &&
  feederOk (acL w) (acLT w) l ls && (acFelt w || feederOk (acR w) (acRT w) r rs)

/-- A stream in progress on the array ends in this cycle when its Kc cycles are not over (R33). -/
def endStreams (y : ArraySt) (c : Nat) : ArraySt :=
  { y with streams := y.streams.map fun st =>
    if st.endedAt.isNone && c < st.issue + acKc st.cfg then { st with endedAt := some c } else st }

def streamBusy (y : ArraySt) (c : Nat) : Bool :=
  y.streams.any fun st => st.endedAt.isNone && decide (c < st.issue + acKc st.cfg)

/-- A stream issues to an array with the four operand registers' values (R274). It is undrained when it starts a set
whose contents no drain has taken before this cycle, or continues one that a drain takes in this cycle (R32, R33). -/
def startStream (t slot : Nat) (arr : Fin 2) (l ls r rs : Word) (set : Fin 2) (cont : Bool) (s : State) : State :=
  let x := s.tile t
  let y := x.arr arr
  if !y.pwr.isOn s.cycle then s.arrHaz t 4 arr set
  else if !streamOk y.cfg l ls r rs then s.coreHaz t 9 slot
  else
    let undrained := (y.set set).ready.isSome && (if cont then (y.set set).drained.any fun d => s.cycle ≤ d
      else (y.set set).drained.all fun d => s.cycle ≤ d)
    let s := if undrained then s.arrHaz t 2 arr set else s
    let s := if streamBusy y s.cycle then s.arrHaz t 3 arr set else s
    let st : Stream := { uid := s.uid, issue := s.cycle, cfg := y.cfg, set := set, cont := cont, left := l.toNat,
                         leftScale := ls.toNat, right := r.toNat, rightScale := rs.toNat, dbg := s.dbgN }
    let y := endStreams y s.cycle
    let y := { y with streams := y.streams ++ [st], gated := false }
    let y := y.setSet set { ready := some st.ready, drained := none }
    let w := accWord t arr set 0 0
    let s := if cont then s.eccSpan placeAcc w 1024 (Src.tile t) arr.val s.running else s
    let s := s.eccFresh placeAcc w 1024
    { s.modTile t fun x => x.setArr arr y with uid := s.uid + 1 }

def opMmStream (u : Site) (arr : Fin 2) (rl rls rr rrs : GReg) (set : Fin 2) (cont : Bool) (s : State) : State :=
  if s.on u then
    startStream u.tile.val (slotM arr) arr (s.rd u rl) (s.rd u rls) (s.rd u rr) (s.rd u rrs) set cont s
  else s

/-- mm.cfg: applies to streams from t + 1 on (R272). -/
def opMmCfg (u : Site) (arr : Fin 2) (ra : GReg) (s : State) : State :=
  if s.on u then s.sch (s.cycle + 1) (.cfg u.tile.val arr (s.rd u ra)) else s

/-- All 1,024 cells of the stream's set after it, with the flags (R53–R56, R71). -/
def commitCells (x : Tile) (arr : Fin 2) (st : Stream) : Tbl Word × Nat :=
  (List.range 1024).foldl (fun a n =>
    let k := accKey arr st.set (n / 32) (n % 32)
    let r := st.cell none (n / 32) (n % 32) (tget 0 x.acc k).toNat
    (tset 0 a.1 k (BitVec.ofNat 32 r.1), a.2 ||| r.2)) (x.acc, st.fl)

/-- The flags that streams of an array raise in the cells of their sets, oldest stream first (R53, R71). -/
def streamFlags (x : Tile) (arr : Fin 2) (sts : List Stream) : Nat :=
  (sts.foldl (fun (a : Tile × Nat) st =>
    let r := commitCells a.1 arr st
    ({ a.1 with acc := r.1 }, a.2 ||| r.2)) (x, 0)).2

/-- mm.pwr (R44, R276): OFF ends the stream, whose counted blocks still raise their flags, and clears both sets; entry 16
cycles, exit 256. -/
def opMmPwr (u : Site) (arr : Fin 2) (off : Bool) (s : State) : State :=
  if s.on u then
    let t := u.tile.val
    let y := (s.tile t).arr arr
    if y.pwr.namesOff = off then s
    else if off then
      let draining := (s.tile t).drains.any fun d => d.arr == arr && decide (s.cycle < d.issue + 34)
      let s := if streamBusy y s.cycle || draining then s.arrHaz t 5 arr 0 else s
      let ended := endStreams y s.cycle
      let fl := BitVec.ofNat 8 (streamFlags (s.tile t) arr ended.streams)
      let y := { ended with pwr := .entering false (s.cycle + 16), streams := [] }
      s.modTile t fun x => { x.setArr arr y with acc := clearAcc x.acc arr, flags := x.flags ||| fl }
    else s.modTile t fun x => x.setArr arr { y with pwr := .exiting (s.cycle + 256) }
  else s

/-! ### Feeder reads and taps of a cycle -/

/-- The stream still reads in a cycle. -/
def Stream.reads (st : Stream) (c : Nat) : Bool := st.issue ≤ c && st.endedAt.all fun e => c < e

/-- Reads of a plain feeder in a cycle: its word, then the scales at the first word of a block (R273, R274). -/
def plainReads (t : Nat) (arr : Fin 2) (st : Stream) (right : Bool) (c : Nat) : List Access :=
  let f := if right then acR st.cfg else acL st.cfg
  let g := feederG f (if right then acL st.cfg else acR st.cfg)
  let base := if right then st.right else st.left
  let sb := if right then st.rightScale else st.leftScale
  let n := c - st.issue
  let w := n / g
  let rank := if right then rkColumn else rkRow
  if n % g = 0 ∧ w < acB st.cfg * blockWords f then
    .read t rank arr.val [((base + 32 * w) % tsSize, 32)] (.word arr st.uid right w) ::
      (if isMx f && w % blockWords f == 0 then
        let q := w / blockWords f
        [.read t rank arr.val [((sb + 32 * q) % tsSize, 32)] (.scale arr st.uid right q)]
      else [])
  else []

/-- Reads of a transposed feeder in a cycle: one group of a source block; the scales of a block one cycle after its
first group, those of the two blocks of an MXFP4 source block together (R123, R125, R273, R274; log entry 8). -/
def transReads (t : Nat) (arr : Fin 2) (st : Stream) (right : Bool) (c : Nat) : List Access :=
  let f := if right then acR st.cfg else acL st.cfg
  let base := if right then st.right else st.left
  let sb := if right then st.rightScale else st.leftScale
  let n := c - st.issue
  let rank := if right then rkColumn else rkRow
  -- K steps of a group, and cycles from one group to the next
  let per := 64 / elemBits f
  let step := per * blockCycles (acL st.cfg) (acR st.cfg) / 32
  let gn := n / step
  let els := if n % step = 0 ∧ gn * per < acK st.cfg then
      [Access.read t rank arr.val ((List.range 32).map fun r => ((base + 1024 * (gn / 4) + 32 * r + 8 * (gn % 4)) % tsSize, 8))
        (.word arr st.uid right gn)]
    else []
  let perBlock := 32 / per
  let q := gn / perBlock
  let pair := f == 6
  let scs := if isMx f && n % step == 1 && gn % perBlock == 0 && decide (q < acB st.cfg) && (!pair || q % 2 == 0) then
      let segs := if pair then [((sb + 32 * q) % tsSize, 32), ((sb + 32 * q + 32) % tsSize, 32)] else [((sb + 32 * q) % tsSize, 32)]
      [Access.read t rank arr.val segs (.scale arr st.uid right q)]
    else []
  els ++ scs

/-- The tile-store reads of a stream in a cycle. -/
def streamReads (t : Nat) (arr : Fin 2) (st : Stream) (c : Nat) : List Access :=
  if st.reads c then
    (if acLT st.cfg then transReads t arr st false c else plainReads t arr st false c) ++
    (if acFelt st.cfg then []
     else if acRT st.cfg then transReads t arr st true c else plainReads t arr st true c)
  else []

/-- A stream of a tile changed by its number. -/
def Tile.modStream (x : Tile) (arr : Fin 2) (uid : Nat) (f : Stream → Stream) : Tile :=
  x.setArr arr { x.arr arr with streams := (x.arr arr).streams.map fun st => if st.uid = uid then f st else st }

/-- Data of a feeder word, or of a group of a transposed read, reaches its operand buffer. -/
def Stream.putWord (st : Stream) (right : Bool) (w : Nat) (d : Bytes) : Stream :=
  let cap := if (if right then acRT st.cfg else acLT st.cfg) then 32 else 256
  if right then { st with rw := tput st.rw (w % cap) d } else { st with lw := tput st.lw (w % cap) d }
def Stream.putScale1 (st : Stream) (right : Bool) (q : Nat) (d : Bytes) : Stream :=
  if right then { st with rs := tput st.rs (q % 8) d } else { st with ls := tput st.ls (q % 8) d }

/-- Scales of block q reach their buffer; 64 bytes hold those of two MXFP4 blocks in turn (R125). -/
def Stream.putScale (st : Stream) (right : Bool) (q : Nat) (d : Bytes) : Stream :=
  if d.length = 64 then
    let every (k : Nat) : Bytes := (List.range 32).map fun j => d.getD (2 * j + k) 0
    (st.putScale1 right q (every 0)).putScale1 right (q + 1) (every 1)
  else st.putScale1 right q d

/-- The buffer entries of block q of a feeder, which it frees once the block is rounded in every cell (R34). -/
def freeEntries (t : Tbl Bytes) (tr : Bool) (f q : Nat) : Tbl Bytes :=
  if tr then
    let n := elemBits f / 2
    (rangeFrom (q * n) n).foldl (fun t g => tdel t (g % 32)) t
  else (rangeFrom (q * blockWords f) (blockWords f)).foldl (fun t w => tdel t (w % 256)) t

/-- What a stream has still to tap on a lane in a cycle: an element word number, and a scale block (R93, R94). -/
def Stream.taps (st : Stream) (lane c : Nat) : Option Nat × Option Nat :=
  if acFelt st.cfg && st.reads c then
    let f := acR st.cfg
    let g := feederG f (acL st.cfg)
    let n := c - st.issue
    let el := if acLane st.cfg = lane ∧ n % g = 0 ∧ n / g < acB st.cfg * blockWords f ∧ (tfind st.rw (n / g % 256)).isNone then some (n / g)
      else none
    let kb := blockCycles (acL st.cfg) f
    let sc := if f = 6 ∧ acSLane st.cfg = lane ∧ acSoff st.cfg ≤ n ∧ (n - acSoff st.cfg) % kb = 0 ∧
        (n - acSoff st.cfg) / kb < acB st.cfg ∧ (tfind st.rs ((n - acSoff st.cfg) / kb % 8)).isNone then some ((n - acSoff st.cfg) / kb) else none
    (el, sc)
  else (none, none)

/-- Byte k of a run replaced. -/
def setByte (b : Bytes) (k : Nat) (v : Byte) : Bytes := (padTo b 32).set k v

/-- An element word tapped: its data, and for an 8-bit MX format its scale as that of its column (R93, R99). -/
def Stream.tapWord (st : Stream) (w : Nat) (x : Option FeltWord) : Stream :=
  let d := match x with
    | some y => y.data
    | none => List.replicate 32 0
  let sc := match x with
    | some y => y.scale
    | none => 0x7F
  let st := st.putWord true w d
  if is8bit (acR st.cfg) then st.putScale true (w / 32) (setByte (bufScale st.rs (w / 32)) (w % 32) sc) else st

/-- The taps of one array on a lane in this cycle. -/
def tapArray (t : Nat) (lane : Fin 4) (arr : Fin 2) (w : Option FeltWord) (s : State) : State :=
  (((s.tile t).arr arr).streams).foldl (fun s st =>
    let k := st.taps lane.val s.cycle
    let s := match k.1 with
      | some n =>
        let good := w.filter fun y => y.kind == 1 || (y.kind == 2 && !y.sw)
        let s := if good.isSome then s else s.feltEmpty t lane.val
        s.modTile t fun x => x.modStream arr st.uid fun z => z.tapWord n good
      | none => s
    match k.2 with
    | some q =>
      let good := w.filter fun y => y.kind == 2 && y.sw
      let s := if good.isSome then s else s.feltEmpty t lane.val
      s.modTile t fun x => x.modStream arr st.uid fun z =>
        z.putScale true q ((good.map (·.data)).getD (List.replicate 32 0))
    | none => s) s

/-- An element tap, and a scale tap, of the tile is due on a lane. -/
def elemTap (x : Tile) (lane c : Nat) : Bool := (x.arr0.streams ++ x.arr1.streams).any fun st => (st.taps lane c).1.isSome
def scaleTap (x : Tile) (lane c : Nat) : Bool := (x.arr0.streams ++ x.arr1.streams).any fun st => (st.taps lane c).2.isSome
def anyTap (x : Tile) (lane c : Nat) : Bool := elemTap x lane c || scaleTap x lane c

/-- The word on the lane is one that a tap due there takes (R99). -/
def fitsTap (x : Tile) (lane c : Nat) (w : FeltWord) : Bool :=
  (elemTap x lane c && (w.kind == 1 || (w.kind == 2 && !w.sw))) || (scaleTap x lane c && w.kind == 2 && w.sw)

/-- The column-feeder taps of both arrays on a lane, and the check of the word they take, which a felt.copy of the same
cycle has made already (R93–R95, R99, R100; log entry 6). -/
def doTaps (t : Nat) (lane : Fin 4) (own copied : Bool) (s : State) : State :=
  let x := s.tile t
  if anyTap x lane.val s.cycle then
    let w := s.feltAt t lane
    let fit := w.filter (fitsTap x lane.val s.cycle)
    let s := match fit with
      | some f => if copied then s else feltVerify s t lane own f
      | none => s
    tapArray t lane 1 w (tapArray t lane 0 w s)
  else s

/-- One lane at one router in one cycle, in the order of R89. -/
def routerLane (t : Nat) (lane : Fin 4) (s : State) : State :=
  let s := doRemove t lane (autoRemove t lane s)
  let free := (s.feltAt t lane).isNone
  let s := doInject t lane s
  let own := free && (s.feltAt t lane).isSome
  let copied := !(takesAt t lane false s).isEmpty
  doGather t lane (doTaps t lane own copied (doCopy t lane own s))

/-- FELT_WORD_ARRIVAL (R89). -/
def execFeltWordArrival (t : TileId) (lane : FeltIn) (s : State) : Res :=
  .next (routerLane t.val lane.lane (if (s.feltAt t.val lane.lane).isSome then s.feltEcc t.val lane.lane lane.err else s))

/-! ### Completion -/

/-- Every block of the stream that counts is rounded in every cell. -/
def Stream.done (st : Stream) (c : Nat) : Bool :=
  match st.endedAt with
  | none => st.ready ≤ c
  | some e => (List.range (acB st.cfg)).all fun q => !st.counts q || st.rounded q 31 31 < c || e + 80 < c

/-- Block q of a stream added into every cell of its set, and its buffer entries freed (R34, R53, R274). -/
def foldBlock (x : Tile) (arr : Fin 2) (st : Stream) : Tile :=
  let q := st.folded
  let r := (List.range 1024).foldl (fun (a : Tbl Word × Nat) n =>
    let k := accKey arr st.set (n / 32) (n % 32)
    let c := st.addBlocks (fun _ => false) (n / 32) (n % 32) (tget 0 x.acc k).toNat 0 q 1
    (tset 0 a.1 k (BitVec.ofNat 32 c.1), a.2 ||| c.2)) (x.acc, st.fl)
  let st : Stream := { st with folded := q + 1, fl := r.2, lw := freeEntries st.lw (acLT st.cfg) (acL st.cfg) q,
                               rw := freeEntries st.rw (acRT st.cfg) (acR st.cfg) q, ls := tdel st.ls (q % 8), rs := tdel st.rs (q % 8) }
  { x.setArr arr { x.arr arr with streams := (x.arr arr).streams.map fun z => if z.uid = st.uid then st else z } with acc := r.1 }

/-- The next block of a stream counts and is rounded in every cell before a cycle. -/
def Stream.foldable (st : Stream) (c : Nat) : Bool :=
  decide (st.folded < acB st.cfg ∧ st.rounded st.folded 31 31 < c) && st.counts st.folded

/-- Every block of the stream that counts is added into its set. -/
def Stream.allFolded (st : Stream) : Bool := acB st.cfg ≤ st.folded || !st.counts st.folded

/-- The streams of the same set that were issued before a stream have added all their blocks: streams into one set add in
issue order (R54, R57). -/
def firstOfSet (l : List Stream) (st : Stream) : Bool :=
  (l.takeWhile fun z => z.uid != st.uid).all fun z => z.set != st.set || z.allFolded

/-- Every stream of an array with a block that has been rounded in every cell adds it into its set. -/
def foldStreams (arr : Fin 2) (c : Nat) (x : Tile) : Tile :=
  (x.arr arr).streams.foldl (fun x st => if st.foldable c && firstOfSet (x.arr arr).streams st then foldBlock x arr st else x) x

/-- The oldest stream of an array, when it is done, is committed to its set (R274). -/
def streamDone (t : Nat) (arr : Fin 2) (s : State) : State :=
  let x := s.tile t
  match (x.arr arr).streams with
  | st :: rest =>
    if st.done s.cycle then
      let r := commitCells x arr st
      let x := { x.setArr arr { x.arr arr with streams := rest } with acc := r.1 }
      s.setTile t { x with flags := x.flags ||| BitVec.ofNat 8 r.2 }
    else s
  | [] => s

/-- Streams that are done are committed to their sets (R274). -/
def settleStreams (s : State) : State :=
  s.tiles.foldl (fun s e =>
    let s := (List.range e.2.arr0.streams.length).foldl (fun s _ => streamDone e.1 0 s) s
    (List.range e.2.arr1.streams.length).foldl (fun s _ => streamDone e.1 1 s) s) s

/-- The exit of an array's power switch ends (R44). -/
def arrExitDone (t : Nat) (arr : Fin 2) (s : State) : State :=
  match ((s.tile t).arr arr).pwr with
  | .exiting d => if d ≤ s.cycle then s.modTile t fun x => x.setArr arr { x.arr arr with pwr := .on } else s
  | _ => s

/-- A set of the array is at least 16 cycles past its last stream. -/
def SetInfo.idle16 (i : SetInfo) (c : Nat) : Bool := i.ready.all fun r => r + 16 ≤ c

/-- Hardware clock-gates a unit after 16 idle cycles (R44). -/
def clockGate (t : Nat) (g : GatedUnit) (s : State) : State :=
  let x := s.tile t
  match g with
  | .array a =>
    let y := x.arr a
    if y.set0.idle16 s.cycle && y.set1.idle16 s.cycle && !streamBusy y s.cycle && decide (16 ≤ s.cycle) then
      s.setTile t (x.setArr a { y with gated := true })
    else s
  | .vector => if (x.vLast.all fun c => c + 16 < s.cycle) && decide (16 ≤ s.cycle) then s.setTile t { x with vGated := true } else s

def execMmStream (u : Site) (arr : Fin 2) (rl rls rr rrs : GReg) (set : Fin 2) (cont : Bool) (s : State) : Res :=
  .next (s.gate u (slotM arr) (opMmStream u arr rl rls rr rrs set cont))
def execMmCfg (u : Site) (arr : Fin 2) (ra : GReg) (s : State) : Res := .next (s.gate u (slotM arr) (opMmCfg u arr ra))
def execMmPwr (u : Site) (arr : Fin 2) (off : Bool) (s : State) : Res := .next (s.gate u (slotM arr) (opMmPwr u arr off))
def execStreamComplete (t : TileId) (arr : Fin 2) (s : State) : Res := .next (streamDone t.val arr s)
def execArrayPowerExitDone (t : TileId) (arr : Fin 2) (s : State) : Res := .next (arrExitDone t.val arr s)
def execArrayClockGate (t : TileId) (g : GatedUnit) (s : State) : Res := .next (clockGate t.val g s)

end Sys2Proof.Machine
end

