-- ==== Sys2Proof/Machine/Scalar.lean ====
section
/-!
DEFINITION. The S slot: scalar arithmetic, predicates, scalar loads and stores (R241, R242).
-/
namespace Sys2Proof.Machine

/-- rd takes f of two registers, n cycles after issue. -/
def scalarR (n : Nat) (f : Word → Word → Word) (u : Site) (rd ra rb : GReg) (s : State) : State :=
  if s.on u then s.wr u slotS n rd (f (s.rd u ra) (s.rd u rb)) else s

/-- rd takes f of a register in the next cycle. -/
def scalarI (f : Word → Word) (u : Site) (rd ra : GReg) (s : State) : State :=
  if s.on u then s.wr u slotS 1 rd (f (s.rd u ra)) else s

/-- rd takes a value in the next cycle. -/
def scalarV (v : Word) (u : Site) (rd : GReg) (s : State) : State := if s.on u then s.wr u slotS 1 rd v else s

/-- 1 for true, as a word. -/
def flag (b : Bool) : Word := if b then 1 else 0

def shAmt (b : Word) : Nat := wfld b 4 0

def opAdd := scalarR 1 (· + ·)
def opSub := scalarR 1 (· - ·)
def opAnd := scalarR 1 (· &&& ·)
def opOr := scalarR 1 (· ||| ·)
def opXor := scalarR 1 (· ^^^ ·)
def opSll := scalarR 1 fun a b => a <<< shAmt b
def opSrl := scalarR 1 fun a b => a >>> shAmt b
def opSra := scalarR 1 fun a b => a.sshiftRight (shAmt b)
def opSlt := scalarR 1 fun a b => flag (a.slt b)
def opSltu := scalarR 1 fun a b => flag (a.ult b)
def opMul := scalarR 3 (· * ·)
def opMin := scalarR 1 fun a b => if a.slt b then a else b
def opMax := scalarR 1 fun a b => if a.slt b then b else a

def opAddi (u : Site) (rd ra : GReg) (imm : BitVec 12) : State → State := scalarI (· + imm.signExtend 32) u rd ra
def opAndi (u : Site) (rd ra : GReg) (imm : BitVec 12) : State → State := scalarI (· &&& imm.signExtend 32) u rd ra
def opOri (u : Site) (rd ra : GReg) (imm : BitVec 12) : State → State := scalarI (· ||| imm.signExtend 32) u rd ra
def opXori (u : Site) (rd ra : GReg) (imm : BitVec 12) : State → State := scalarI (· ^^^ imm.signExtend 32) u rd ra
def opSlli (u : Site) (rd ra : GReg) (sh : BitVec 5) : State → State := scalarI (· <<< sh.toNat) u rd ra
def opSrli (u : Site) (rd ra : GReg) (sh : BitVec 5) : State → State := scalarI (· >>> sh.toNat) u rd ra
def opSrai (u : Site) (rd ra : GReg) (sh : BitVec 5) : State → State := scalarI (·.sshiftRight sh.toNat) u rd ra
def opSlti (u : Site) (rd ra : GReg) (imm : BitVec 12) : State → State :=
  scalarI (fun a => flag (a.slt (imm.signExtend 32))) u rd ra
def opLdi (u : Site) (rd : GReg) (imm : BitVec 17) : State → State := scalarV (imm.signExtend 32) u rd
/-- ldih: bits [31:15] replaced, bits [14:0] unchanged. -/
def opLdih (u : Site) (rd : GReg) (imm : BitVec 17) : State → State := scalarI (fun a => wput a 31 15 imm.toNat) u rd rd

/-- The address of ld.w or st.w (R241); the two low bits are ignored (R242). -/
def scalarAddr (u : Site) (ra : GReg) (imm : BitVec 12) (s : State) : Nat :=
  let a := (s.rd u ra + imm.signExtend 32).toNat
  a - a % 4

/-- A scalar access at an address in range happens, a misaligned one reported; one out of range has no effect. -/
def scalarAccess (u : Site) (ra : GReg) (imm : BitVec 12) (a : Nat → Access) (s : State) : State :=
  if s.on u then
    let raw := (s.rd u ra + imm.signExtend 32).toNat
    if raw < tsSize then
      let s := if raw % 4 = 0 then s else s.coreHaz u.tile.val 6 slotS
      s.access (a (scalarAddr u ra imm s))
    else s.badOperand u slotS
  else s

/-- ld.w: visible at t + 5, t + 6 in a debug build (R241). -/
def opLdW (u : Site) (rd ra : GReg) (imm : BitVec 12) (s : State) : State :=
  scalarAccess u ra imm (fun a => .read u.tile.val rkScalar 0 [(a, 4)] (.greg rd (s.cycle + 5 + s.dbgN))) s

def opStW (u : Site) (rd ra : GReg) (imm : BitVec 12) (s : State) : State :=
  scalarAccess u ra imm (fun a => .write u.tile.val rkScalar 0 [(a, leBytes (s.rd u rd).toNat 4)] prNone 0) s

/-- The comparison of pcmp (R241). -/
def cmpHolds : Cmp → Word → Word → Bool
  | .eq, a, b => a == b
  | .ne, a, b => a != b
  | .lt, a, b => a.slt b
  | .ltu, a, b => a.ult b
  | .ge, a, b => !a.slt b
  | .geu, a, b => !a.ult b

/-- The function of plog (R241). -/
def pfnApp : PFn → Bool → Bool → Bool
  | .and, a, b => a && b
  | .or, a, b => a || b
  | .xor, a, b => a != b
  | .andNot, a, b => a && !b

/-- A predicate takes a value in the next cycle. -/
def predW (v : State → Bool) (u : Site) (pd : PReg) (s : State) : State :=
  if s.on u then s.regW u.tile.val slotS (s.cycle + 1) (.pset u.tile.val pd (v s)) else s

def opPcmp (u : Site) (pd : PReg) (ra rb : GReg) (c : Cmp) : State → State :=
  predW (fun s => cmpHolds c (s.rd u ra) (s.rd u rb)) u pd
def opPlog (u : Site) (pd pa pb : PReg) (f : PFn) : State → State :=
  predW (fun s => pfnApp f ((s.tile u.tile.val).pr pa) ((s.tile u.tile.val).pr pb)) u pd
def opPset (u : Site) (pd : PReg) (v : Bool) : State → State := predW (fun _ => v) u pd

def opFlagsRd (u : Site) (rd : GReg) (s : State) : State := scalarV ((s.tile u.tile.val).flags.setWidth 32) u rd s
def opTidRd (u : Site) (rd : GReg) : State → State := scalarV (BitVec.ofNat 32 u.tile.val) u rd
def opSpanRd (u : Site) (rd : GReg) (s : State) : State := scalarV (BitVec.ofNat 32 s.spanNo) u rd s
/-- lc.rd: remaining passes of an active loop, this one included (R241). -/
def opLcRd (u : Site) (rd : GReg) (k : Fin 4) (s : State) : State :=
  let l : Loop := tget {} (s.tile u.tile.val).loops k.val
  scalarV (if l.active then BitVec.ofNat 32 l.passes else 0) u rd s

/-! ### Meanings -/

def execAdd (u : Site) (rd ra rb : GReg) (s : State) : Res := .next (opAdd u rd ra rb s)
def execSub (u : Site) (rd ra rb : GReg) (s : State) : Res := .next (opSub u rd ra rb s)
def execAndR (u : Site) (rd ra rb : GReg) (s : State) : Res := .next (opAnd u rd ra rb s)
def execOrR (u : Site) (rd ra rb : GReg) (s : State) : Res := .next (opOr u rd ra rb s)
def execXorR (u : Site) (rd ra rb : GReg) (s : State) : Res := .next (opXor u rd ra rb s)
def execSll (u : Site) (rd ra rb : GReg) (s : State) : Res := .next (opSll u rd ra rb s)
def execSrl (u : Site) (rd ra rb : GReg) (s : State) : Res := .next (opSrl u rd ra rb s)
def execSra (u : Site) (rd ra rb : GReg) (s : State) : Res := .next (opSra u rd ra rb s)
def execSlt (u : Site) (rd ra rb : GReg) (s : State) : Res := .next (opSlt u rd ra rb s)
def execSltu (u : Site) (rd ra rb : GReg) (s : State) : Res := .next (opSltu u rd ra rb s)
def execMul (u : Site) (rd ra rb : GReg) (s : State) : Res := .next (opMul u rd ra rb s)
def execMinS (u : Site) (rd ra rb : GReg) (s : State) : Res := .next (opMin u rd ra rb s)
def execMaxS (u : Site) (rd ra rb : GReg) (s : State) : Res := .next (opMax u rd ra rb s)
def execAddi (u : Site) (rd ra : GReg) (imm : BitVec 12) (s : State) : Res := .next (opAddi u rd ra imm s)
def execAndi (u : Site) (rd ra : GReg) (imm : BitVec 12) (s : State) : Res := .next (opAndi u rd ra imm s)
def execOri (u : Site) (rd ra : GReg) (imm : BitVec 12) (s : State) : Res := .next (opOri u rd ra imm s)
def execXori (u : Site) (rd ra : GReg) (imm : BitVec 12) (s : State) : Res := .next (opXori u rd ra imm s)
def execSlli (u : Site) (rd ra : GReg) (sh : BitVec 5) (s : State) : Res := .next (opSlli u rd ra sh s)
def execSrli (u : Site) (rd ra : GReg) (sh : BitVec 5) (s : State) : Res := .next (opSrli u rd ra sh s)
def execSrai (u : Site) (rd ra : GReg) (sh : BitVec 5) (s : State) : Res := .next (opSrai u rd ra sh s)
def execSlti (u : Site) (rd ra : GReg) (imm : BitVec 12) (s : State) : Res := .next (opSlti u rd ra imm s)
def execLdi (u : Site) (rd : GReg) (imm : BitVec 17) (s : State) : Res := .next (opLdi u rd imm s)
def execLdih (u : Site) (rd : GReg) (imm : BitVec 17) (s : State) : Res := .next (opLdih u rd imm s)
def execLdW (u : Site) (rd ra : GReg) (imm : BitVec 12) (s : State) : Res := .next (opLdW u rd ra imm s)
def execStW (u : Site) (rd ra : GReg) (imm : BitVec 12) (s : State) : Res := .next (opStW u rd ra imm s)
def execPcmp (u : Site) (pd : PReg) (ra rb : GReg) (c : Cmp) (s : State) : Res := .next (opPcmp u pd ra rb c s)
def execPlog (u : Site) (pd pa pb : PReg) (f : PFn) (s : State) : Res := .next (opPlog u pd pa pb f s)
def execPset (u : Site) (pd : PReg) (v : Bool) (s : State) : Res := .next (opPset u pd v s)
def execFlagsRd (u : Site) (rd : GReg) (s : State) : Res := .next (opFlagsRd u rd s)
def execTidRd (u : Site) (rd : GReg) (s : State) : Res := .next (opTidRd u rd s)
def execSpanRd (u : Site) (rd : GReg) (s : State) : Res := .next (opSpanRd u rd s)
def execLcRd (u : Site) (rd : GReg) (k : Fin 4) (s : State) : Res := .next (opLcRd u rd k s)

end Sys2Proof.Machine
end

