-- ==== Sys2Proof/Machine/Bank.lean ====
section
/-!
DEFINITION. Power states of the tile-store banks (R127–R129).
-/
namespace Sys2Proof.Machine

/-- HAZARD: ts.bank naming a bank whose previous ts.bank has not completed (R475). -/
def State.bankHaz (s : State) (t b : Nat) : State :=
  s.hazard t (leBytes 0x07 1 ++ leBytes 3 1 ++ leBytes b 2 ++ leBytes s.cycle 4)

/-- Bytes of bank b of a tile cleared. -/
def zeroBank (t b : Nat) (m : Mem) : Mem :=
  m.filter fun e => !(e.1 / tsSize == t && bankOf (e.1 % tsSize / 8) == b)

/-- The check of a sheet over its contents, by the unit that fills (R404). -/
def resealTile (t : Nat) (s : State) : State :=
  (List.range 768).foldl (fun s n => s.setSheet t n { crc := crc32c (s.ts t (256 * n) 256) }) s

/-- The contents of a bank are lost as it enters OFF (R127). -/
def loseBank (t b : Nat) (s : State) : State := { s with mem := { s.mem with ts := zeroBank t b s.mem.ts } }

/-- A bank that leaves OFF is zero-filled during its exit, with fresh check bits, and the unit that fills computes the checks
of the sheets anew (R127, R404, R408). -/
def fillBank (t b : Nat) (s : State) : State :=
  let hit (k : Nat) : Bool := k / 2 ^ 48 == placeTs && k % 2 ^ 48 / 0x6000 == t && bankOf (k % 2 ^ 48 % 0x6000) == b
  let s := loseBank t b s
  resealTile t { s with mem := { s.mem with ecc := s.mem.ecc.filter fun e => !hit e.1 } }

/-- The entry of a power state, when it is complete (R127). -/
def settleBank (t b : Nat) (s : State) : State :=
  let x := s.bank t b
  match x.pwr with
  | .entering ret c =>
    if c ≤ s.cycle then
      let s := s.setBank t b { x with pwr := if ret then .ret else .off }
      if ret then s else loseBank t b s
    else s
  | .exiting c => if c ≤ s.cycle then s.setBank t b { x with pwr := .on } else s
  | _ => s

/-- Bank b named by a ts.bank (R127, R129). -/
def nameBank (t : Nat) (target : BankTarget) (tag : TagNo) (uid b : Nat) (s : State) : State :=
  let s := settleBank t b s
  let x := s.bank t b
  if x.req.isSome then s.bankHaz t b
  else
    let x := { x with req := some (target, tag, uid) }
    match target with
    | .on =>
      match x.pwr with
      | .on => s.setBank t b x
      | .ret => s.setBank t b { x with pwr := .exiting (s.cycle + 32) }
      | .entering true _ => s.setBank t b { x with pwr := .exiting (s.cycle + 32) }
      | .exiting c => s.setBank t b { x with pwr := .exiting (max c (s.cycle + 32)) }
      | _ => (fillBank t b s).setBank t b { x with pwr := .exiting (s.cycle + 128) }
    | _ => s.setBank t b { x with closedAt := some (x.closedAt.getD s.cycle) }

/-- Banks in a mask. -/
def banksOf (m : Word) : List Nat := (List.range 32).filter fun b => m.getLsbD b

/-- ts.bank: its tag counts one outstanding operation while a bank it named has not reached its target (R127). -/
def opTsBank (u : Site) (target : BankTarget) (ra : GReg) (tag : TagNo) (s : State) : State :=
  if s.on u then
    let t := u.tile.val
    let uid := s.uid
    let s := (banksOf (s.rd u ra)).foldl (fun s b => nameBank t target tag uid b s) { s with uid := uid + 1 }
    if (List.range 32).any fun b => (s.bank t b).req == some (target, tag, uid) then
      let x := s.tag t tag.val
      s.setTag t tag.val { x with count := x.count + 1 }
    else s
  else s

/-- A write that was accepted before the bank closed has a granule in it; the first half of a sheet stands for the whole of it
(R128, R129). -/
def Access.inBank (s : State) (t b : Nat) : Access → Bool
  | .write t' _ _ segs prod _ since =>
    t' == t && !s.closedTo t b since && (if segs.all fun e => e.1 % 256 < 128 then metGranules prod segs else segGranules (segs.map fun e => (e.1, e.2.length))).any
      fun g => bankOf g == b
  | .read .. => false

/-- The write-acceptance count of a bank: writes of the scheduled pipeline that will not be dropped, second halves that have
still to come, and what the deposit buffer has taken (R128). -/
def State.accepted (s : State) (t b : Nat) : Nat :=
  (s.mem.acc.filter (·.inBank s t b)).length +
  (s.sched.filter fun e => match e.2 with
    | .access a => a.inBank s t b
    | _ => false).length +
  (s.mem.halves.filter fun e => e.1 / 768 == t && !e.2.dropped && (granules (e.1 % 768 * 256 + 128) 128).any fun g => bankOf g == b).length +
  ((s.dep t).filter fun e => (match e.left with
    | some l => l
    | none => granules e.addr (max e.size e.data.length)).any fun g => bankOf g == b).length

/-- BANK_GATE_ENTRY: the count of a closed bank is 0 and its entry begins, 8 cycles (R127, R129). The table gives entries from
ON; from RET to OFF and from OFF to RET the model takes the same 8 cycles, and the exit is that of the state last entered
(log entry 177). -/
def bankGate (t b : Nat) (s : State) : State :=
  let x := s.bank t b
  match x.req with
  | some (.on, _) => s
  | some (target, _) =>
    let from' := match x.pwr with
      | .on => true
      | .ret => target == .off
      | .off => target == .ret
      | _ => false
    if from' && s.accepted t b == 0 then s.setBank t b { x with pwr := .entering (target == .ret) (s.cycle + 8) } else s
  | none => s

/-- A bank has reached the state a ts.bank names. -/
def Bank.reached (x : Bank) (target : BankTarget) : Bool :=
  match target, x.pwr with
  | .on, .on => true
  | .ret, .ret => true
  | .off, .off => true
  | _, _ => false

/-- Banks that an operation still holds. -/
def heldBanks (s : State) (t uid : Nat) : List Nat :=
  (List.range 32).filter fun b => match (s.bank t b).req with
    | some (_, _, k) => k == uid
    | none => false

/-- One ts.bank is complete when every bank it named is there; a bank made ON opens in that cycle (R127, R129). -/
def bankOpDone (t uid : Nat) (s : State) : State :=
  let bs := heldBanks s t uid
  if bs.all fun b => match (s.bank t b).req with
    | some (target, _) => (s.bank t b).reached target
    | none => false
  then
    match bs.head?.bind fun b => (s.bank t b).req with
    | some (target, tag, _) =>
      let s := bs.foldl (fun s b =>
        let x := s.bank t b
        s.setBank t b { x with req := none, closedAt := if target = .on then none else x.closedAt }) s
      let x := s.tag t tag.val
      s.setTag t tag.val { x with count := x.count - 1 }
    | none => s
  else s

/-- TS_BANK_COMPLETE (R127). -/
def tsBankComplete (t : Nat) (tag : TagNo) (s : State) : State :=
  let s := (List.range 32).foldl (fun s b => settleBank t b s) s
  let uids := ((List.range 32).filterMap fun b => (s.bank t b).req).filterMap fun r => if r.2.1 = tag then some r.2.2 else none
  uids.eraseDups.foldl (fun s uid => bankOpDone t uid s) s

def execTsBank (u : Site) (target : BankTarget) (ra : GReg) (tag : TagNo) (s : State) : Res := .next (opTsBank u target ra tag s)
def execBankGateEntry (t : TileId) (b : Fin 32) (s : State) : Res := .next (bankGate t.val b.val s)
def execTsBankComplete (t : TileId) (tag : TagNo) (s : State) : Res := .next (tsBankComplete t.val tag s)

end Sys2Proof.Machine
end

