-- ==== Sys2Proof/Machine/Mesh.lean ====
section
/-!
DEFINITION. Scheduled traffic of the mesh: routes (R132, R180), routers (R178–R181, R229), delivery (R180, R283),
reduction contexts (R184–R186), the X slot's mesh.send (R180, R290), and the rows other units send (R282, R289).
-/
namespace Sys2Proof.Machine

/-- Number of a port: 0 local, 1 north, 2 east, 3 south, 4 west (R189). -/
def mportCode : MPort → Nat
  | .loc => 0
  | .north => 1
  | .east => 2
  | .south => 3
  | .west => 4

/-! ### Routes -/

/-- Cycles along one coordinate: a hop each, and 6 for each polder seam (R42, R180). -/
def axisDelay (a b : Nat) : Nat := dist a b + 6 * dist (a / 12) (b / 12)

/-- h from a tile to a tile (R180). -/
def meshDist (a b : Nat) : Nat := axisDelay (a % 48) (b % 48) + axisDelay (a / 48) (b / 48)

/-- h from a tile to the edge of a levee die (R132). -/
def edgeDist (t : Nat) (l : Fin 4) : Nat :=
  match l with
  | 0 => axisDelay (t / 48) 0
  | 1 => axisDelay (t % 48) 47
  | 2 => axisDelay (t / 48) 47
  | 3 => axisDelay (t % 48) 0

/-- The edge tile of a tile's straight path to a levee die (R132). -/
def edgeTile (t : Nat) (l : Fin 4) : Nat :=
  match l with
  | 0 => t % 48
  | 1 => t / 48 * 48 + 47
  | 2 => 47 * 48 + t % 48
  | 3 => t / 48 * 48

/-- Position of an edge tile along its edge (R135). -/
def edgePos (t : Nat) (l : Fin 4) : Nat :=
  match l with
  | 0 => t % 48
  | 1 => t / 48
  | 2 => t % 48
  | 3 => t / 48

/-- The port that faces a levee die: LN north, LE east, LS south, LW west. -/
def edgePort (l : Fin 4) : Nat := l.val + 1

/-- The output that a dimension-ordered route takes at a router: along the row first, then along the column. -/
def routePort (r dest : Nat) : Nat :=
  if r % 48 < dest % 48 then 2
  else if dest % 48 < r % 48 then 4
  else if dest / 48 < r / 48 then 1
  else if r / 48 < dest / 48 then 3
  else 0

/-- The router beyond a port, if there is one on the grid. -/
def neighbour (r port : Nat) : Option Nat :=
  match port with
  | 1 => if r / 48 = 0 then none else some (r - 48)
  | 2 => if r % 48 = 47 then none else some (r + 1)
  | 3 => if r / 48 = 47 then none else some (r + 48)
  | 4 => if r % 48 = 0 then none else some (r - 1)
  | _ => none

/-- The port by which a flit that left by a port comes in. -/
def opposite (port : Nat) : Nat :=
  match port with
  | 1 => 3
  | 2 => 4
  | 3 => 1
  | 4 => 2
  | p => p

/-- The port by which a flit that a tile sends reaches the router of another, or of its own (R180). -/
def arrivalPort (t dest : Nat) : Nat :=
  if t / 48 < dest / 48 then 1
  else if dest / 48 < t / 48 then 3
  else if t % 48 < dest % 48 then 4
  else if dest % 48 < t % 48 then 2
  else 0

/-- Cycles of a hop: 1, and 6 more over a seam (R180). -/
def hopCycles (a b : Nat) : Nat := if polderOf a = polderOf b then 1 else 7

/-- The seam between two routers is shut: a polder beside it is SHUT or RETAIN (R227, R229). -/
def State.seamShut (s : State) (a b : Nat) : Bool :=
  polderOf a != polderOf b && (decide (2 ≤ s.polder (polderOf a)) || decide (2 ≤ s.polder (polderOf b)))

/-! ### Events (R189) -/

/-- A mesh event of a router: its bit and its count are reported at the end of the span. -/
def State.meshEvent (s : State) (r bit k : Nat) : State :=
  s.modTile r fun x => { x with meshBits := x.meshBits ||| BitVec.ofNat 8 bit, meshCnt := tmod 0 x.meshCnt k (· + 1) }

/-- HAZARD of the mesh: 1 collision, 2 limit exceeded, 3 partial discarded. -/
def State.meshHaz (s : State) (src port sub kind : Nat) : State :=
  s.hazard src (leBytes 0x02 1 ++ leBytes port 1 ++ leBytes sub 1 ++ leBytes kind 1 ++ leBytes s.cycle 4)

/-- A hop brings a flit of a channel by a port with a bit error: corrected, or not correctable, and the flit goes on as
received (R175, R189). -/
def State.meshEcc (s : State) (r port vc kind : Nat) (e : HopErr) : State :=
  s.hopEcc r e (leBytes 0x02 1 ++ leBytes port 1 ++ leBytes vc 1 ++ leBytes kind 1 ++ leBytes s.cycle 4)

/-- The port that a record names for an input of a context: a context's output is none of the router's ports (log entry
134). -/
def portByte (inp : Nat) : Nat := if inp < 5 then inp else 0

/-- Traffic discarded at a shut seam (R229, R233): kind 0 mesh, 1 Felt. -/
def State.shutDrop (s : State) (writer port kind : Nat) : State :=
  let s := (s.setBits Reg.CLK_STATUS 4).bump Reg.CLK_SHUTDROP_COUNT 1
  s.hazard writer (leBytes 0x04 1 ++ leBytes 1 1 ++ leBytes port 1 ++ leBytes kind 1 ++ leBytes s.cycle 4)

/-- KIND of R176 of a flit. -/
def Flit.kindCode (f : Flit) : Nat :=
  match f.kind with
  | 1 => 1
  | 3 => 3
  | _ => 0

/-- The flit sideband of R176. -/
def sideband (vc : Nat) (edge : Option (Fin 4)) (dest kind : Nat) (last : Bool) (rid line chk : Nat) : BitVec 48 :=
  BitVec.ofNat 48 (vc * 2 ^ 46 + b2n edge.isSome * 2 ^ 45 + (match edge with
    | some l => l.val
    | none => dest % 4096) * 2 ^ 33 + kind % 8 * 2 ^ 30 + b2n last * 2 ^ 29 + rid % 8 * 2 ^ 26 + line % 1024 * 2 ^ 16 + chk % 65536)

/-- The sideband of a scheduled flit: VC1 for a partial; RID and the CRC-16 go with KIND 3 alone, the halves of the sheet's
check with sheet data (R176). -/
def Flit.side (f : Flit) : BitVec 48 :=
  sideband (b2n f.vc1) f.edge f.dest f.kindCode f.last (if f.kindCode = 3 then f.rid else 0) (f.addr / 256)
    (if f.kindCode = 1 then 0 else f.chk)

/-- Bit k of the data and CHK of a flit, from a byte's bit 0 on, as it is when received wrong: the code covers all 1,072
bits, and of a double error the model shows those of the data and of CHK (R175; log entry 165). -/
def Flit.flip (f : Flit) (k : Nat) : Flit :=
  if k < 1024 then { f with data := flipBit f.data k } else if k < 1040 then { f with chk := f.chk ^^^ 2 ^ (k - 1024) } else f

def State.addFlit (s : State) (f : Flit) : State := { s with mesh := { s.mesh with flits := s.mesh.flits ++ [f] } }

/-- What a discarded flit leaves (R181): the missing half of a sheet is written as zeros in the cycle it was due. -/
def lostHalf (r : Nat) (f : Flit) (s : State) : State :=
  let z := List.replicate 128 0
  match f.kind with
  | 0 => s.accessAt (s.cycle + meshDist r f.dest + 2) (.write f.dest rkMesh 0 [(f.addr, z)] prSheet f.chk)
  | 4 =>
    match f.shadow with
    | some k => s.sch (s.cycle + meshDist r f.dest) (.shadowHalf f.dest (b2n f.last) k z f.chk)
    | none => s.accessAt (s.cycle + meshDist r f.dest) (.write f.dest rkMesh 0 [(f.addr, z)] prSheet f.chk)
  | 5 =>
    let l := f.edge.getD 0
    s.sch (s.cycle + edgeDist r l + 24) (.rsvWrite l (edgePos (edgeTile r l) l) f.off (b2n f.last) f.id f.src z f.chk)
  | _ => s

/-- A scheduled flit discarded at an output of a router (R181). The record names the output that was wanted, where the
rule says a port alone (log entry 167). -/
def collide (r port : Nat) (f : Flit) (s : State) : State :=
  lostHalf r f ((s.meshEvent r 1 0).meshHaz f.src port 1 f.kindCode)

/-! ### Outputs -/

/-- A scheduled flit passes a link direction of a router: the limit of R179 is counted. Directions 0–4 are the
outputs, 5 the input of the local port, 6 and 7 the inputs of the edge links (north or south, east or west). -/
def useLink (r dir port : Nat) (f : Flit) (s : State) : State :=
  let k := r * 8 + dir
  let w := (tget [] s.mesh.caps k).filter fun c => s.ticks < c + 64
  let s := { s with mesh := { s.mesh with caps := tset [] s.mesh.caps k (s.ticks :: w) } }
  if 48 < w.length + 1 then (s.meshEvent r 2 1).meshHaz f.src port 2 f.kindCode else s

/-- The input direction of a flit that the limit counts where it comes in. -/
def useInput (f : Flit) (s : State) : State :=
  if f.inp = 0 then useLink f.at_ 5 0 f s
  else if f.inp < 5 ∧ (neighbour f.at_ f.inp).isNone then useLink f.at_ (if f.inp % 2 = 1 then 6 else 7) f.inp f s
  else s

/-- An output already serves a scheduled flit in this cycle. -/
def outputTaken (r port : Nat) (s : State) : Bool := (tget [] s.mesh.caps (r * 8 + port)).head? == some s.ticks

/-- A flit at the router of its destination (R180, R282, R289): written 2 cycles later, reservoir data at once, but for that
of a shadow sheet, which goes to the deposit buffer (R39, R162). -/
def deliver (f : Flit) (s : State) : State :=
  let due := s.cycle + 2
  match f.kind with
  | 4 =>
    match f.shadow with
    | some k => s.sch s.cycle (.shadowHalf f.dest (b2n f.last) k f.data f.chk)
    | none => s.access (.write f.dest rkMesh 0 [(f.addr, f.data)] prSheet f.chk)
  | 2 =>
    let s := s.accessAt due (.write f.dest rkMesh 0 [(f.addr, f.data)] prNone 0)
    match f.scale with
    | some (a, b) => s.accessAt due (.write f.dest rkMesh 1 [(a, [b])] prNone 0)
    | none => s
  | 3 =>
    let s := if crc16 f.data = f.chk then s else
      let s := (s.setBits Reg.ERR_STATUS 8).bump Reg.ERR_CHECK_COUNT 1
      s.logStop Ev.CHECK_MISMATCH (Src.tile f.at_) (leBytes 2 1 ++ leBytes 0 1 ++ leBytes 1 1 ++ leBytes 3 1 ++ leBytes s.cycle 4) s.running
    s.accessAt due (.write f.at_ rkMesh 0 [(f.addr, f.data)] prRed 0)
  | _ => s.accessAt due (.write f.dest rkMesh 0 [(f.addr, f.data)] prSheet f.chk)

/-- A flit enters the levee crossing at the edge tile it has reached: a request reaches its bank 6 cycles later, a
half-sheet 24 cycles later (R133). -/
def enterLevee (r : Nat) (l : Fin 4) (f : Flit) (s : State) : State :=
  if f.kind = 1 then
    match f.shadow with
    | some k => s.sch (s.cycle + 6) (.shadowRead l (edgePos r l) f.off f.src f.addr k)
    | none => s.sch (s.cycle + 6) (.rsvRead l (edgePos r l) f.off f.src f.addr)
  else s.sch (s.cycle + 24) (.rsvWrite l (edgePos r l) f.off (b2n f.last) f.id f.src f.data f.chk)

/-! ### Reduction contexts -/

def State.ctx (s : State) (r k : Nat) : RCtx := tget {} s.mesh.rctx (r * 8 + k)
def State.setCtx (s : State) (r k : Nat) (x : RCtx) : State :=
  { s with mesh := { s.mesh with rctx := tset {} s.mesh.rctx (r * 8 + k) x } }

/-- The lowest declared context of a router with an input (log entry 9). -/
def ctxFor (s : State) (r inp : Nat) : Option Nat :=
  (List.range 8).find? fun k => let x := s.ctx r k; x.decl && (x.ina == inp || x.inb == inp)

/-- A sum that leaves its router for the next one is a partial for the context that has that input there (log entry 9). -/
def Flit.bound (f : Flit) (s : State) (n port : Nat) : Flit :=
  if f.vc1 && 8 ≤ f.inp then { f with dest := n, rid := (ctxFor s n (opposite port)).getD 0 } else f

/-- A flit leaves a router by a port. -/
def leave (r port : Nat) (f : Flit) (s : State) : State :=
  match neighbour r port with
  | some n =>
    if s.seamShut r n then s.shutDrop r port 0
    else s.addFlit { f.bound s n port with at_ := n, cyc := s.cycle + hopCycles r n, inp := opposite port }
  | none =>
    match f.edge with
    | some l => enterLevee r l f s
    | none => s

/-- A partial is discarded (R186). -/
def partialDrop (r inp : Nat) (f : Flit) (s : State) : State := (s.meshEvent r 4 2).meshHaz f.src (portByte inp) 3 3

/-- A partial reaches the context that its RID names by an input; a full queue, or a context that is not declared with that
input, discards it (R184, R186). -/
def partialIn (r inp : Nat) (f : Flit) (s : State) : State :=
  let x := s.ctx r f.rid
  if x.decl && (x.ina == inp || x.inb == inp) then
    let e := (f.data, f.chk, s.cycle)
    let toA := x.ina = inp ∧ (x.inb ≠ inp ∨ x.qa.length ≤ x.qb.length)
    if (if toA then x.qa else x.qb).length < 4 then
      s.setCtx r f.rid (if toA then { x with qa := x.qa ++ [e] } else { x with qb := x.qb ++ [e] })
    else partialDrop r inp f s
  else partialDrop r inp f s

/-- CHECK_MISMATCH of a partial at a context (R185). -/
def partialCheck (r port : Nat) (e : Bytes × Nat × Nat) (s : State) : State :=
  if crc16 e.1 = e.2.1 then s
  else
    let s := (s.setBits Reg.ERR_STATUS 8).bump Reg.ERR_CHECK_COUNT 1
    s.logStop Ev.CHECK_MISMATCH (Src.tile r) (leBytes 2 1 ++ leBytes (portByte port) 1 ++ leBytes 1 1 ++ leBytes 3 1 ++ leBytes s.cycle 4) s.running

/-- A context adds its two head flits; the sum leaves 3 cycles after the later one arrived (R184). -/
def ctxAdd (r k : Nat) (s : State) : State :=
  let x := s.ctx r k
  match x.qa, x.qb with
  | a :: ra, b :: rb =>
    let s := partialCheck r x.inb b (partialCheck r x.ina a s)
    let vs := ((toWords a.1).zip (toWords b.1)).map fun p => accumulate (some p.1.toNat) (unpack fp32 p.2.toNat)
    let d := fromWords (vs.map fun v => BitVec.ofNat 32 v.1)
    let s := s.flagAt r s.cycle (BitVec.ofNat 8 (vs.foldl (fun m v => m ||| v.2) 0))
    let due := max s.cycle (max a.2.2 b.2.2 + 3)
    let s := s.setCtx r k { x with qa := ra, qb := rb, sent := if x.out = 0 then x.sent + 1 else x.sent }
    s.addFlit { at_ := r, cyc := due, inp := 8 + k, vc1 := true, rid := x.out - 8, out := x.out, kind := 3, last := true, dest := r, src := r,
                addr := x.line * 256 + 128 * (x.sent % 2), data := d, chk := crc16 d }
  | _, _ => s

/-- RCTX_ADD (R184). -/
def execRctxAdd (t : TileId) (k : Fin 8) (s : State) : Res := .next (ctxAdd t.val k.val s)

/-! ### Routers -/

/-- Where a flit goes at a router: an output port, or an input of one of the router's contexts. A partial follows DEST to
the router of its context, and a sum the output of the context that it leaves (R180, R184). -/
def Flit.target (f : Flit) : Option Nat :=
  if f.vc1 then
    if 8 ≤ f.inp then (if f.out < 5 then some f.out else none)
    else if f.dest = f.at_ then none else some (routePort f.at_ f.dest)
  else
    match f.edge with
    | some l => some (edgePort l)
    | none => some (routePort f.at_ f.dest)

/-- One flit at a router in the current cycle. -/
def routeFlit (f : Flit) (s : State) : State :=
  let r := f.at_
  let s := useInput f s
  match f.target with
  | none => partialIn r f.inp f s
  | some port =>
    if outputTaken r port s then collide r port f s
    else
      let s := useLink r port port f s
      if port = 0 then deliver f s else leave r port f s

/-- Comes before at a router (R181, R291). -/
def Flit.before (a b : Flit) : Bool := a.inp < b.inp || (a.inp == b.inp && a.unit < b.unit)

def insertFlit (f : Flit) : List Flit → List Flit
  | [] => [f]
  | g :: r => if f.before g then f :: g :: r else g :: insertFlit f r

/-- The flits of a router in a cycle in their order, those of the local port but for the first apart (R291). -/
def routerOrder (fs : List Flit) : List Flit × List Flit :=
  let o := fs.foldl (fun l f => insertFlit f l) []
  match o with
  | f :: r => if f.inp = 0 then (f :: r.filter (·.inp != 0), r.filter (·.inp == 0)) else (o, [])
  | [] => ([], [])

/-- The scheduled flits that are at a router in the current cycle (R180, R181). -/
def routerCycle (r : Nat) (s : State) : State :=
  let fs := s.mesh.flits.filter fun f => f.at_ == r && f.cyc ≤ s.cycle
  let s := { s with mesh := { s.mesh with flits := s.mesh.flits.filter fun f => !(f.at_ == r && f.cyc ≤ s.cycle) } }
  let o := routerOrder fs
  let s := o.2.foldl (fun s f => collide r 0 f s) s
  o.1.foldl (fun s f => routeFlit f s) s

/-- A flit comes in by a mesh port of a router in this cycle. -/
def Flit.comesIn (f : Flit) (s : State) (r port : Nat) : Bool := f.at_ == r && f.cyc ≤ s.cycle && f.inp == port && port != 0

/-- Two wrong bits stay wrong in what comes in by a port, as received (R81, R175). -/
def State.meshDamage (s : State) (r port : Nat) (e : HopErr) : State :=
  match e with
  | .uncorrectable a b =>
    { s with mesh := { s.mesh with flits := s.mesh.flits.map fun f => if f.comesIn s r port then (f.flip a).flip b else f } }
  | _ => s

/-- The code of a hop reports on the flit that comes in by a port in this cycle (R175). -/
def arrivalEcc (r port : Nat) (e : HopErr) (s : State) : State :=
  match s.mesh.flits.find? fun f => f.comesIn s r port with
  | some f => (s.meshEcc r port (b2n f.vc1) f.kindCode e).meshDamage r port e
  | none => s

/-- MESH_FLIT_ARRIVAL (R180). -/
def execMeshFlitArrival (t : MeshIn) (s : State) : Res :=
  .next (routerCycle t.tile.val (arrivalEcc t.tile.val (mportCode t.inp) t.err s))

/-! ### Sending -/

/-- A row or a vector register sent to the local port, where it is 2 cycles before it leaves (R282, R289). A row of 128
bytes is a partial when the router of the tile it names declares a context with the input by which the row arrives there
(R184; log entry 9). A row is no whole sheet: R176 lists no KIND for it, and it goes as KIND 0 with CHK 0 (log entry
168). -/
def sendRow (t unit leaveAt dest addr : Nat) (data : Bytes) (scale : Option (Nat × Byte)) (s : State) : State :=
  let f : Flit := { at_ := t, cyc := leaveAt, inp := 0, unit := unit, dest := dest, kind := 2, last := true, addr := addr, data := data,
                    chk := 0, scale := scale, src := t }
  match if data.length = 128 then ctxFor s dest (arrivalPort t dest) else none with
  | some k => s.addFlit { f with vc1 := true, rid := k, kind := 3, chk := crc16 data }
  | none => s.addFlit f

/-- The two half-sheet reads of sheet j of a transfer, in cycles t + 2j and t + 2j + 1 (R290). -/
def halfReads (t a j : Nat) (sink : Nat → Sink) (s : State) : State :=
  let s := s.accessAt (s.cycle + 2 * j) (.read t rkSend 0 [(a + 256 * j, 128)] (sink 0))
  s.accessAt (s.cycle + 2 * j + 1) (.read t rkSend 0 [(a + 256 * j + 128, 128)] (sink 1))

/-- mesh.send (R180, R290). -/
def opMeshSend (u : Site) (rt rs rd : GReg) (len : Fin 64) (s : State) : State :=
  if s.on u then
    let t := u.tile.val
    let dest := (s.rd u rt).toNat
    let a := s.rd u rs
    let line := (s.rd u rd).toNat
    let n := len.val + 1
    if dest < 2304 ∧ dest ≠ t ∧ tsOk a 256 (256 * n) = true ∧ line + n ≤ 768 then
      (List.range n).foldl (fun s j =>
        halfReads t a.toNat j (fun h => .send dest (line + j) h (s.cycle + 6 + 2 * j + h + s.dbgN)) s) s
    else s.badOperand u slotX
  else s

def execMeshSend (u : Site) (rt rs rd : GReg) (len : Fin 64) (s : State) : Res := .next (opMeshSend u rt rs rd len s)

/-- The half of a sheet's check that a flit carries: bits [15:0] with the first half, [31:16] with the second (R176). -/
def chkHalf (half : Nat) (c : Word) : Nat := if half = 0 then wfld c 15 0 else wfld c 31 16

/-- A half-sheet read by mesh.send is at the local port: the sheet is sealed when its first half is read (R126). -/
def sendHalf (t a dest line half leaveAt : Nat) (data : Bytes) (s : State) : State :=
  let e := if half = 0 then exportSheet s t (a / 256) else (s, (s.sheet t (a / 256)).crc)
  e.1.addFlit { at_ := t, cyc := leaveAt, inp := 0, unit := 2, dest := dest, kind := 0, last := half = 1,
                addr := 256 * line + 128 * half, chk := chkHalf half e.2, data := data, src := t }

/-- The span boundary discards what the contexts hold and takes their declarations away (R186). -/
def meshFlush (s : State) : State :=
  let s := s.mesh.rctx.foldl (fun s e =>
    let f : Flit := { at_ := e.1 / 8, cyc := 0, inp := 0, src := e.1 / 8 }
    let s := e.2.qa.foldl (fun s _ => partialDrop (e.1 / 8) e.2.ina f s) s
    e.2.qb.foldl (fun s _ => partialDrop (e.1 / 8) e.2.inb f s) s) s
  let s := (s.mesh.flits.filter (·.vc1)).foldl (fun s f => partialDrop f.at_ f.inp f s) s
  { s with mesh := { s.mesh with rctx := [], flits := s.mesh.flits.filter fun f => !f.vc1 } }

/-! ### Unscheduled flits (R177, R182) -/

def vKey (t port : Nat) (vc3 : Bool) : Nat := (t * 5 + port) * 2 + b2n vc3

def State.vb (s : State) (t port : Nat) (vc3 : Bool) : List VFlit := tget [] s.mesh.vbuf (vKey t port vc3)
def State.setVb (s : State) (t port : Nat) (vc3 : Bool) (l : List VFlit) : State :=
  { s with mesh := { s.mesh with vbuf := tset [] s.mesh.vbuf (vKey t port vc3) l } }

/-- Bit k of the data and CHK of an unscheduled flit as received wrong (R175; log entry 165). -/
def VFlit.flip (f : VFlit) (k : Nat) : VFlit :=
  if k < 1024 then { f with data := flipBit f.data k } else if k < 1040 then { f with chk := f.chk ^^^ 2 ^ (k - 1024) } else f

/-- What waits at the port of a crossing for its edge link into a tile. -/
def State.inb (s : State) (t port : Nat) : List VFlit := tget [] s.mesh.inb (t * 5 + port)
def State.setInb (s : State) (t port : Nat) (l : List VFlit) : State :=
  { s with mesh := { s.mesh with inb := tset [] s.mesh.inb (t * 5 + port) l } }

/-- The sideband of an unscheduled flit (R176). -/
def VFlit.side (f : VFlit) (vc3 : Bool) : BitVec 48 :=
  sideband (2 + b2n vc3) f.edge f.dest f.kind f.last 0 (f.addr / 256) (if f.kind = 0 ∨ f.kind = 2 then f.chk else 0)

/-- A flit offered at the local port of a tile for VC2 (R177): it waits there for room in the input buffer. -/
def vOffer (t : Nat) (f : VFlit) (s : State) : State :=
  { s with mesh := { s.mesh with offer := tset [] s.mesh.offer t (tget [] s.mesh.offer t ++ [{ f with born := s.cycle }]) } }

/-- The two flits of a sheet for VC2, with the halves of its check (R175, R176). -/
def sheetFlits (f : VFlit) (data : Bytes) (chk : Word) : List VFlit :=
  [{ f with data := data.take 128, last := false, chk := chkHalf 0 chk },
   { f with addr := f.addr + 128, data := data.drop 128, last := true, chk := chkHalf 1 chk }]

/-- The first flit offered at a local port enters its buffer of 8 flits when a place is free; it is at the router 2 cycles
later (R182, R183). -/
def vEnter (t : Nat) (s : State) : State :=
  match tget [] s.mesh.offer t with
  | f :: r =>
    if (s.vb t 0 false).length < 8 then
      let s := { s with mesh := { s.mesh with offer := tset [] s.mesh.offer t r } }
      s.setVb t 0 false (s.vb t 0 false ++ [{ f with since := s.cycle + 2 }])
    else s
  | [] => s

/-! ### Multicast (R187) -/

/-- The outputs that take a copy of a multicast flit at a router: along its entry row towards the columns of its rectangle,
from that row into each of them, along a column to its end, and into each tile of the rectangle (R187). -/
def mcOuts (t : Nat) (f : VFlit) : List Nat :=
  let a (k : Nat) : Nat := f.args.getD k 0
  let r := t / 48
  let c := t % 48
  let inCol := decide (a 2 ≤ c ∧ c ≤ a 3)
  let here := if inCol && decide (a 0 ≤ r ∧ r ≤ a 1) then [0] else []
  let column := if inCol then (if a 0 < r ∧ a 4 ≠ 2 then [1] else []) ++ (if r < a 1 ∧ a 4 ≠ 1 then [3] else []) else []
  let row := if a 4 ≠ 0 then [] else (if c < a 3 ∧ a 5 ≠ 2 then [2] else []) ++ (if a 2 < c ∧ a 5 ≠ 1 then [4] else [])
  here ++ column ++ row

/-- The copy that leaves by an output: its direction along a column (1 north, 2 south), and along the row (1 east,
2 west). -/
def mcCopy (f : VFlit) (out : Nat) : VFlit :=
  let col := match out with
    | 1 => 1
    | 3 => 2
    | _ => 0
  let row := match out with
    | 2 => 1
    | 4 => 2
    | _ => 0
  { f with outs := none, args := (List.range 4).map (f.args.getD · 0) ++ [if col = 0 then f.args.getD 4 0 else col, if row = 0 then f.args.getD 5 0 else row] }

/-- The tiles that a multicast flit at a router is delivered to, copy by copy, within a number of hops. -/
def mcReach : Nat → Nat → VFlit → List Nat
  | 0, _, _ => []
  | fuel + 1, t, f => (mcOuts t f).flatMap fun out =>
    if out = 0 then [t] else
      match neighbour t out with
      | some n => mcReach fuel n (mcCopy f out)
      | none => []

/-- The VC3 flit of KIND 7 that device firmware injects at the LW crossing of a row for a rectangle of tiles that the row
crosses: first and last row, first and last column. -/
def multicast (r0 r1 c0 c1 : Nat) (s : State) : VFlit :=
  { dest := r0 * 48 + c0, kind := 7, src := r0 * 48, args := [r0, r1, c0, c1], since := s.cycle, born := s.cycle }

/-- A multicast flit is delivered: what it brings takes effect at each tile of its rectangle (log entry 100). -/
def mcDeliver (f : VFlit) (act : Nat → State → State) (s : State) : State :=
  (mcReach 96 (f.dest / 48 * 48) f).foldl (fun s t => act t s) s

end Sys2Proof.Machine
end

