-- ==== Sys2Proof/Machine/Reservoir.lean ====
section
/-!
DEFINITION. The reservoirs: rv.read and rv.write of the X slot (R133, R290), windows (R131), bank cycles and their
conflicts (R134, R135), and translation-fault records (R140, R145, R146).
-/
namespace Sys2Proof.Machine

/-! ### Fault records -/

/-- Data bytes of an XLAT_FAULT record: VA or reservoir offset and levee, kind, queue, program slot (R146). -/
def xlatData (va kind q slot : Nat) : Bytes :=
  leBytes va 6 ++ leBytes kind 1 ++ leBytes q 1 ++ leBytes slot 1

/-- What a translation fault sets before it is logged: XLAT, its count, and the capture of the first fault after
the last read (R140, R145). -/
def xlatNote (s : State) (va kind q slot tile : Nat) : State :=
  let s := (s.setBits Reg.ERR_STATUS 1).bump Reg.ERR_XLAT_COUNT 1
  if s.xfHeld then s
  else
    let s := s.setReg Reg.MEM_XF_VA_LO (BitVec.ofNat 32 va)
    let s := s.setReg Reg.MEM_XF_VA_HI (BitVec.ofNat 32 (va / 2 ^ 32))
    let i := wput (wput (wput (wput 0 31 28 slot) 27 25 kind) 24 22 q) 11 0 tile
    { s.setReg Reg.MEM_XF_INFO i with xfHeld := true }

/-- A fault that a halted queue reports (R140): it stops no program by itself (R410). -/
def xlatQueue (s : State) (va kind q slot tile : Nat) : State :=
  (xlatNote s va kind q slot tile).log1 Ev.XLAT_FAULT (Src.tile tile) (xlatData va kind q slot)

/-- A fault whose record stops the program: reservoir offsets (R131) and link traffic (R310). -/
def xlatStop (s : State) (src va kind q slot tile : Nat) (owner : Option Nat) : State :=
  (xlatNote s va kind q slot tile).logStop Ev.XLAT_FAULT src (xlatData va kind q slot) owner

/-! ### Storage -/

/-- Size of a levee's reservoir (R130). -/
abbrev rsvSize : Nat := 0x6000000

/-- The sheets of the reservoir at a physical offset. -/
def State.rsvSheet (s : State) (l off : Nat) : Bytes := mread s.mem.rsv (l * rsvSize + off) 256
def State.rsvCheck (s : State) (l off : Nat) : Word := tget zeroChk s.mem.rsvChk ((l * rsvSize + off) / 256)

/-- A whole sheet written with its check (R130). -/
def State.rsvPut (s : State) (l off : Nat) (data : Bytes) (chk : Word) : State :=
  let a := l * rsvSize + off
  let s := (List.range 32).foldl (fun s k => s.eccWrite placeRsv (a / 8 + k)) s
  { s with mem := { s.mem with rsv := mwrite s.mem.rsv a (data.take 256), rsvChk := tset zeroChk s.mem.rsvChk (a / 256) chk } }

/-- A sheet read: errors its words hold are counted and logged (R408, R424). -/
def rsvRead' (l off : Nat) (scrub : Bool) (owner : Option Nat) (s : State) : State :=
  (List.range 32).foldl
    (fun s k => s.eccRead placeRsv ((l * rsvSize + off) / 8 + k) (Src.levee l) l (off + 8 * k) scrub owner) s

/-- Physical offset of a window offset of a slot; none outside the window (R131). -/
def winOff (s : State) (slot l off : Nat) : Option Nat :=
  let w := tget (0, 0) (s.slot slot).win l
  if off + 256 ≤ w.2 * 0x10000 then some (w.1 * 0x10000 + off) else none

/-! ### Bank cycles (R133–R135) -/

/-- The edge tile at a position along an edge (R135). -/
def edgeAt (l : Fin 4) (edge : Nat) : Nat :=
  match l with
  | 0 => edge
  | 1 => edge * 48 + 47
  | 2 => 47 * 48 + edge
  | 3 => edge * 48

/-- Half h of a sheet of read data leaves the edge tile for the tile that asked (R133); of two flits that one edge link brings
in one cycle the router takes that of the program first (R162; log entry 166). -/
def returnHalf (l : Fin 4) (edge tile addr h : Nat) (data : Bytes) (chk : Word) (of : Option (Nat × Nat × Nat)) (s : State) : State :=
  s.addFlit { at_ := edgeAt l edge, cyc := s.cycle + 30 + h, inp := edgePort l, unit := b2n of.isSome, dest := tile, kind := 4, last := h == 1,
              addr := addr + 128 * h, chk := chkHalf h chk, data := (data.drop (128 * h)).take 128, src := tile, shadow := of }

/-- A sheet sent back to a tile: its two halves. -/
def returnSheet (l : Fin 4) (edge tile addr : Nat) (data : Bytes) (chk : Word) (of : Option (Nat × Nat × Nat)) (s : State) : State :=
  returnHalf l edge tile addr 1 data chk of (returnHalf l edge tile addr 0 data chk of s)

/-- The edge link that is to bring a sheet into the grid in the cycles 30 and 31 after this one brings nothing else then. -/
def returnFree (l : Fin 4) (edge : Nat) (s : State) : Bool :=
  !s.mesh.flits.any fun f => f.at_ == edgeAt l edge && f.inp == edgePort l && (f.cyc == s.cycle + 30 || f.cyc == s.cycle + 31)

/-- The loser of a bank conflict (R135). -/
def rsvLoss (tile wr : Nat) (l : Fin 4) (off : Nat) (s : State) : State :=
  let s := (s.memBit tile 1).bump Reg.MEM_RSVCONF_COUNT 1
  s.hazard tile (leBytes 0x0B 1 ++ leBytes 1 1 ++ leBytes l.val 1 ++ leBytes wr 1 ++ leBytes s.cycle 4 ++ leBytes off 4)

/-- An access outside the window of the running program (R131). -/
def rsvOutside (tile : Nat) (l : Fin 4) (off : Nat) (s : State) : State :=
  xlatStop s (Src.tile tile) (off + l.val * 2 ^ 32) 4 0 (s.running.getD 0) tile s.running

/-- Zero sheet with its check. -/
def zeroSheet : Bytes := List.replicate 256 0

/-- Banks of the reservoir taken in a cycle: (levee, bank). -/
abbrev RsvBusy := List (Nat × Nat)

/-- A shadow sheet at its bank: it takes a bank-cycle that no scheduled access holds, and waits for one, and for its edge
link, from cycle to cycle (R162). -/
def shadowServe (l : Fin 4) (edge off tile addr : Nat) (of : Nat × Nat × Nat) (busy : RsvBusy) (s : State) : RsvBusy × State :=
  if !returnFree l edge s then (busy, s.sch (s.cycle + 1) (.shadowRead l edge off tile addr of))
  else
    match winOff s (s.running.getD 0) l.val off with
    | none => (busy, returnSheet l edge tile addr zeroSheet zeroChk (some of) (rsvOutside tile l off s))
    | some p =>
      let b := (l.val, p / 256 % 48)
      if busy.contains b then (busy, s.sch (s.cycle + 1) (.shadowRead l edge off tile addr of))
      else
        let s := rsvRead' l.val p false s.running s
        (b :: busy, returnSheet l edge tile addr (s.rsvSheet l.val p) (s.rsvCheck l.val p) (some of) s)

/-- One reservoir access in its bank cycle, after those that come before it. -/
def rsvServe (e : Effect) (busy : RsvBusy) (s : State) : RsvBusy × State :=
  match e with
  | .rsvRead l edge off tile addr =>
    match winOff s (s.running.getD 0) l.val off with
    | none => (busy, returnSheet l edge tile addr zeroSheet zeroChk none (rsvOutside tile l off s))
    | some p =>
      let b := (l.val, p / 256 % 48)
      if busy.contains b then (busy, returnSheet l edge tile addr zeroSheet zeroChk none (rsvLoss tile 0 l off s))
      else
        let s := rsvRead' l.val p false s.running s
        (b :: busy, returnSheet l edge tile addr (s.rsvSheet l.val p) (s.rsvCheck l.val p) none s)
  | .rsvWrite l _ off half id tile data chk =>
    match winOff s (s.running.getD 0) l.val off with
    | none => (busy, if half = 0 then rsvOutside tile l off s else s)
    | some p =>
      let b := (l.val, p / 256 % 48)
      if half = 0 then
        if busy.contains b then (busy, rsvLoss tile 1 l off s)
        else (b :: busy, { s with mem := { s.mem with rsvw := tput s.mem.rsvw id (data, chk) } })
      else
        match tfind s.mem.rsvw id with
        | none => (busy, s)
        | some d0 =>
          let s := { s with mem := { s.mem with rsvw := tdel s.mem.rsvw id } }
          if busy.contains b then (busy, rsvLoss tile 1 l off s)
          else (b :: busy, s.rsvPut l.val p (padTo d0.1 128 ++ padTo data 128) (BitVec.ofNat 32 (d0.2 % 65536 + chk * 65536)))
  | .shadowRead l edge off tile addr of => shadowServe l edge off tile addr of busy s
  | _ => (busy, s)

/-- Position of a reservoir access in the order of R135; shadow sheets come after every scheduled access (R162). -/
def rsvRank : Effect → Nat
  | .rsvRead _ edge _ _ _ => edge * 4 + 3
  | .shadowRead _ edge _ _ _ _ => 200 + edge
  | .rsvWrite _ edge _ half _ _ _ _ => edge * 4 + (if half = 1 then 0 else 1)
  | _ => 0

def insRsv (e : Effect) : List Effect → List Effect
  | [] => [e]
  | f :: r => if rsvRank e < rsvRank f then e :: f :: r else f :: insRsv e r

/-- The reservoir accesses of a cycle, in their order (R135). -/
def rsvCycle (es : List Effect) (s : State) : State :=
  ((es.foldl (fun l e => insRsv e l) []).foldl (fun p e => rsvServe e p.1 p.2) (([], s) : RsvBusy × State)).2

/-! ### X-slot operations -/

/-- Operands of rv.read and rv.write are in range (R290). -/
def rvOk (o a : Word) (n : Nat) : Bool := o.toNat % 256 == 0 && tsOk a 256 (256 * n)

/-- rv.read: a request a sheet, two cycles apart (R133). -/
def opRvRead (u : Site) (lev : Fin 4) (ro ra : GReg) (len : Fin 64) (s : State) : State :=
  if s.on u then
    let t := u.tile.val
    let o := s.rd u ro
    let a := s.rd u ra
    let n := len.val + 1
    if rvOk o a n then
      (List.range n).foldl (fun s j =>
        s.addFlit { at_ := t, cyc := s.cycle + 2 + 2 * j, inp := 0, unit := 3, edge := some lev, dest := t, kind := 1,
                    last := true, addr := a.toNat + 256 * j, off := o.toNat + 256 * j, src := t }) s
    else s.badOperand u slotX
  else s

def execRvRead (u : Site) (lev : Fin 4) (ro ra : GReg) (len : Fin 64) (s : State) : Res := .next (opRvRead u lev ro ra len s)

/-- rv.write: half-sheet reads in cycles t + 2j and t + 2j + 1 (R133, R290). -/
def opRvWrite (u : Site) (lev : Fin 4) (ro ra : GReg) (len : Fin 64) (s : State) : State :=
  if s.on u then
    let o := s.rd u ro
    let a := s.rd u ra
    let n := len.val + 1
    if rvOk o a n then
      (List.range n).foldl (fun s j =>
        halfReads u.tile.val a.toNat j
          (fun h => .rvw lev (o.toNat + 256 * j) h s.uid (s.cycle + 6 + 2 * j + h + s.dbgN)) { s with uid := s.uid + 1 }) s
    else s.badOperand u slotX
  else s

def execRvWrite (u : Site) (lev : Fin 4) (ro ra : GReg) (len : Fin 64) (s : State) : Res := .next (opRvWrite u lev ro ra len s)

/-- A half-sheet read by rv.write is at the local port (R133); the sheet is sealed when its first half is read. -/
def rvHalf (t a : Nat) (lev : Fin 4) (off half id leaveAt : Nat) (data : Bytes) (s : State) : State :=
  let e := if half = 0 then exportSheet s t (a / 256) else (s, (s.sheet t (a / 256)).crc)
  e.1.addFlit { at_ := t, cyc := leaveAt, inp := 0, unit := 4, edge := some lev, dest := t, kind := 5, last := half == 1,
                off := off, id := id, chk := chkHalf half e.2, data := data, src := t }

end Sys2Proof.Machine
end

