-- ==== Sys2Proof/Machine/Hbm.lean ====
section
/-!
DEFINITION. HBM: sheets with their checks (R136, R407), device virtual addresses and their tables (R137–R140), and the
weight version table through which a descriptor may name its data (R111, R113).
-/
namespace Sys2Proof.Machine

/-! ### Sheets -/

/-- Size of the HBM (R136). -/
abbrev hbmSize : Nat := 0xF000000000

/-- The stack a physical address lies in (R136). -/
def stackOf (pa : Nat) : Nat := pa / 256 % 384 % 12

def State.hbmB (s : State) (pa n : Nat) : Bytes := mread s.mem.hbm pa n
def State.hbmSheet (s : State) (pa : Nat) : Bytes := s.hbmB (pa / 256 * 256) 256
def State.hbmCheck (s : State) (pa : Nat) : Word := tget zeroChk s.mem.hbmChk (pa / 256)

/-- A codeword of HBM: a half of a sheet with its two bytes of the sheet check, and 14 parity bytes, RS(144,130); no rule gives
the generator of the code (R407; log entry 178). -/
def hbmCode (s : State) (w : Nat) : Bytes :=
  let m := s.hbmB (128 * w) 128 ++ leBytes (if w % 2 = 0 then wfld (s.hbmCheck (128 * w)) 15 0 else wfld (s.hbmCheck (128 * w)) 31 16) 2
  m ++ (Config.hbmParity m).toList

/-- A codeword is written anew (R408). -/
def freshCode (w : Nat) (s : State) : State := (s.eccWrite placeHbm w).eccWrite placeDie w

/-- A sheet committed with its check (R152): both codewords are written anew (R408). -/
def State.hbmPut (s : State) (pa : Nat) (data : Bytes) (chk : Word) : State :=
  let b := pa / 256 * 256
  let s := freshCode (b / 128 + 1) (freshCode (b / 128) s)
  { s with mem := { s.mem with hbm := mwrite s.mem.hbm b (data.take 256), hbmChk := tset zeroChk s.mem.hbmChk (b / 256) chk } }

/-- Bytes within sheets written by the device itself, which computes the new checks (R404). -/
def State.hbmBytes (s : State) (pa : Nat) (data : Bytes) : State :=
  let s := { s with mem := { s.mem with hbm := mwrite s.mem.hbm pa data } }
  (rangeFrom (pa / 256) ((pa + data.length + 255) / 256 - pa / 256)).foldl (fun s n =>
    let s := freshCode (2 * n + 1) (freshCode (2 * n) s)
    { s with mem := { s.mem with hbmChk := tset zeroChk s.mem.hbmChk n (crc32c (s.hbmSheet (n * 256))) } }) s

/-- The slot whose reservation holds a physical address: its frames, or its save area (R141). -/
def ownerOfPa (s : State) (pa : Nat) : Option Nat :=
  (s.slots.find? fun e => e.2.frames.any (fun r => decide (r.1 ≤ pa / 0x200000 ∧ pa / 0x200000 < r.1 + r.2)) || e.2.save == some (pa / 0x40000000)).map (·.1)

/-- Errors that the on-die ECC of a stack corrects count as corrected errors (R407; log entry 178). -/
def dieRead (w : Nat) (scrub : Bool) (owner : Option Nat) (s : State) : State :=
  match tget 0 s.mem.ecc (eccKey placeDie w) with
  | 0 => s
  | n =>
    let pa := w * 128
    ((s.setBits Reg.ERR_STATUS 2).bump Reg.ERR_CE_COUNT n).log1 Ev.ECC_CORRECTED (Src.stack (stackOf pa))
      (eccData placeHbm (stackOf pa) pa scrub (owner.getD 0xFF) s.spanNo)

/-- A codeword is read: a corrected one is written back (R407), an uncorrectable one records its frame (R412). -/
def hbmCodeword (w : Nat) (scrub : Bool) (owner : Option Nat) (s : State) : State :=
  let pa := w * 128
  let s := dieRead w scrub owner s
  let bad := tget 0 s.mem.ecc (eccKey placeHbm w)
  let s := s.eccRead placeHbm w (Src.stack (stackOf pa)) (stackOf pa) pa scrub owner
  if bad = 0 then s
  else if bad ≤ eccReach placeHbm then freshCode w s
  else
    { s with mem := { s.mem with recorded := if s.mem.recorded.contains (pa / 0x200000) then s.mem.recorded
                                             else s.mem.recorded ++ [pa / 0x200000] } }

/-- A sheet is read from HBM. -/
def hbmRead (pa : Nat) (scrub : Bool) (s : State) : State :=
  let o := ownerOfPa s pa
  hbmCodeword (pa / 256 * 2 + 1) scrub o (hbmCodeword (pa / 256 * 2) scrub o s)

/-- The check of a sheet that a levee-local unit reads from HBM (R406). -/
def hbmVerify (pa : Nat) (s : State) : State :=
  if crc32c (s.hbmSheet pa) = s.hbmCheck pa then s
  else s.checkFail (Src.stack (stackOf pa)) placeHbm (stackOf pa) pa (ownerOfPa s pa)

/-! ### Translation (R137–R140) -/

/-- What an operation needs of a page: RD, WR or ACC. -/
inductive Right where
  | rd | wr | acc
  deriving DecidableEq, Repr

/-- The bit of a table entry that grants a right (R138). -/
def Right.bit : Right → Nat
  | .rd => 2
  | .wr => 3
  | .acc => 4

/-- The kind of fault its lack raises (R140). -/
def Right.kind : Right → Nat
  | .rd => 1
  | .wr => 2
  | .acc => 3

/-- A translation: a physical address, or the kind of a fault. -/
inductive Xlat where
  | pa (a : Nat)
  | fault (kind : Nat)
  deriving DecidableEq, Repr

/-- Offset of the translation tables in a save area (R143). -/
abbrev tableOff : Nat := 0x3C000000

/-- A page entry grants a right, or the fault it raises (R138, R140). -/
def pageOf (e : Nat) (r : Right) (pa : Nat) : Xlat := if bitN e r.bit then .pa pa else .fault r.kind

/-- The translation of a device virtual address of slot k (R137, R138). -/
def translate (s : State) (k va : Nat) (r : Right) : Xlat :=
  match (s.slot k).save with
  | none => .fault 0
  | some f =>
    let e1 := leNat (s.hbmB (f * 0x40000000 + tableOff + 8 * (va / 2 ^ 30 % 262144)) 8)
    if !bitN e1 0 then .fault 0
    else if bitN e1 1 then pageOf e1 r (fld e1 39 30 * 2 ^ 30 + va % 2 ^ 30)
    else
      let e2 := leNat (s.hbmB (fld e1 39 12 * 4096 + 8 * (va / 2 ^ 21 % 512)) 8)
      if !bitN e2 0 then .fault 0 else pageOf e2 r (fld e2 39 21 * 2 ^ 21 + va % 2 ^ 21)

/-- A translation whose cache entry fails its parity: the entry is fetched anew, and a correction is counted, without a
record, since no place code names the cache (R408; log entry 163). -/
def xlatParity (k va : Nat) (s : State) : State :=
  let w := k * 2 ^ 27 + va / 2 ^ 21
  if tget 0 s.mem.ecc (eccKey placeXlat w) = 0 then s
  else ((s.setBits Reg.ERR_STATUS 2).bump Reg.ERR_CE_COUNT 1).eccWrite placeXlat w

/-- The table entries that a translation reads in HBM (R139, R407; log entry 173). -/
def xlatRead (k va : Nat) (s : State) : State :=
  match (s.slot k).save with
  | none => s
  | some f =>
    let a1 := f * 0x40000000 + tableOff + 8 * (va / 2 ^ 30 % 262144)
    let s := hbmRead a1 false s
    let e1 := leNat (s.hbmB a1 8)
    if bitN e1 0 && !bitN e1 1 then hbmRead (fld e1 39 12 * 4096 + 8 * (va / 2 ^ 21 % 512)) false s else s

/-- A translation takes place: its cache entry is checked, and its table entries are read. -/
def xlatWalk (k va : Nat) (s : State) : State := xlatRead k va (xlatParity k va s)

/-- HBM is read from an address on (R407). -/
def hbmSpan (pa n : Nat) (s : State) : State :=
  let ws := eccMarks s placeDie (pa / 128) (n / 128) ++ eccMarks s placeHbm (pa / 128) (n / 128)
  ws.eraseDups.foldl (fun s w => hbmCodeword w false (ownerOfPa s (128 * w)) s) s

/-- Bytes from an address to the end of the smallest page (R137). -/
def toPageEnd (va : Nat) : Nat := 0x200000 - va % 0x200000

/-! ### Weight version table (R111, R113) -/

def State.wvEntry (s : State) (k e : Nat) : WvEntry := tget {} (s.slot k).wv e
def State.setWv (s : State) (k e : Nat) (x : WvEntry) : State :=
  s.setSlot k { s.slot k with wv := tset {} (s.slot k).wv e x }

/-- The entry is declared in the image: its copies have a size (R111, R474). -/
def WvEntry.declared (e : WvEntry) : Bool := e.c0.size != 0

/-- A READY copy that holds a version. -/
def WvCopy.holds (c : WvCopy) (v : Nat) : Bool := !c.writing && c.ver == some v

/-- The READY copy of an entry that holds a version. -/
def WvEntry.copyOf (e : WvEntry) (v : Nat) : Option WvCopy :=
  if e.c0.holds v then some e.c0 else if e.c1.holds v then some e.c1 else none

/-- The WRITING copy of an entry. -/
def WvEntry.writingCopy (e : WvEntry) : Option WvCopy :=
  if e.c0.writing then some e.c0 else if e.c1.writing then some e.c1 else none

/-- WV_FAULT with the kind and the entry of a failure (R113, R117). -/
def wvFail (kind entry : Nat) (s : State) : State :=
  let s := s.setBits Reg.TRN_WV_STATUS 0x40000000
  (s.setRf Reg.TRN_WV_STATUS 29 28 kind).setRf Reg.TRN_WV_STATUS 11 0 entry

end Sys2Proof.Machine
end

