-- ==== Sys2Proof/Machine/Red.lean ====
section
/-!
DEFINITION. The reduction plan of a program and the progress of its reams as the commits and reads of the module see
them: regions (R324–R326), states and counts (R327, R328), and which reads are held (R332, R341).
-/
namespace Sys2Proof.Machine

/-! ### The domain (R294) -/

/-- Modules in the domain, N. -/
def State.domN (s : State) : Nat :=
  if s.rf Reg.LNK_SHAPE 31 31 = 1 then
    (s.rf Reg.LNK_SHAPE 3 0 + 1) * (s.rf Reg.LNK_SHAPE 7 4 + 1) * (s.rf Reg.LNK_SHAPE 11 8 + 1)
  else 1

/-- Own rank: 0 in a domain of one. -/
def State.rank (s : State) : Nat := if s.rf Reg.LNK_SHAPE 31 31 = 1 then s.rf Reg.LNK_RANK 9 0 else 0

/-! ### Ream records (R324) -/

def State.redSlot (s : State) (k : Nat) : RedSlot := tget {} s.red k
def State.setRedSlot (s : State) (k : Nat) (x : RedSlot) : State := { s with red := tset {} s.red k x }
def State.ream? (s : State) (k j : Nat) : Option Ream := tfind (s.redSlot k).reams j
def State.setReam (s : State) (k j : Nat) (x : Ream) : State :=
  s.setRedSlot k { s.redSlot k with reams := tput (s.redSlot k).reams j x }

def Ream.fd (r : Ream) (o n : Nat) : Nat := leAt r.raw o n
def Ream.red (r : Ream) : Bool := bitN (r.fd 0 1) 0
def Ream.gath (r : Ream) : Bool := bitN (r.fd 0 1) 1
def Ream.thin (r : Ream) : Bool := bitN (r.fd 0 1) 2
def Ream.gwv (r : Ream) : Bool := bitN (r.fd 0 1) 3
def Ream.fmt (r : Ream) : Nat := fld (r.fd 1 1) 3 0
def Ream.ofmt (r : Ream) : Nat := fld (r.fd 1 1) 7 4
def Ream.tlog (r : Ream) : Nat := r.fd 2 1
def Ream.nSlices (r : Ream) : Nat := r.fd 4 2
def Ream.owner0 (r : Ream) : Nat := r.fd 6 2
def Ream.fillTarget (r : Ream) : Nat := r.fd 8 4
def Ream.gfill (r : Ream) : Nat := r.fd 12 4
def Ream.gslice (r : Ream) : Nat := r.fd 16 2
def Ream.gentry (r : Ream) : Nat := r.fd 18 2
def Ream.period (r : Ream) : Nat := r.fd 20 2
def Ream.phase (r : Ream) : Nat := r.fd 22 2
def Ream.src (r : Ream) : Nat := r.fd 24 8
def Ream.sumVa (r : Ream) : Nat := r.fd 32 8
def Ream.stageVa (r : Ream) : Nat := r.fd 40 8
def Ream.remVa (r : Ream) : Nat := r.fd 48 8
def Ream.gva (r : Ream) : Nat := r.fd 56 8

/-- E: elements of a slice (R325). -/
def Ream.elems (r : Ream) : Nat := if r.fmt = 0x8 then 16384 else 8192

/-- Bytes of a slice in RM_SUM (R326). -/
def Ream.sumBytes (r : Ream) : Nat := r.elems * (if r.ofmt = 0x8 then 2 else 4)

/-- Elements selected from a thinned slice, k (R337). -/
def Ream.picks (r : Ream) : Nat := 16384 / 2 ^ r.tlog

/-- C: sheets each rank contributes to a slice (R326). -/
def Ream.contrib (r : Ream) : Nat := if r.thin then r.picks / 64 else 128

def Ream.ownerOf (r : Ream) (n i : Nat) : Nat := (r.owner0 + i) % n

/-- The slices this rank owns, in ascending order. -/
def owned (s : State) (r : Ream) : List Nat := (List.range r.nSlices).filter fun i => r.ownerOf s.domN i == s.rank

/-- Base address of the gather region: within the WRITING copy of its weight entry when RM_GWV is 1 (R340). -/
def gatherBase (s : State) (k : Nat) (r : Ream) : Option Nat :=
  if r.gwv then
    let e := tget {} (s.slot k).wv r.gentry
    if e.c0.writing then some (e.c0.va + r.gva) else if e.c1.writing then some (e.c1.va + r.gva) else none
  else some r.gva

/-- Sheet of the gather region at an address. -/
def gatherSheet (s : State) (k : Nat) (r : Ream) (va : Nat) : Option Nat :=
  match gatherBase s k r with
  | some b => if b ≤ va ∧ va < b + r.nSlices * r.gslice * 256 then some ((va - b) / 256) else none
  | none => none

/-- A gather slice is complete: every sheet has arrived, or, for an owned slice, it has been written (R340). -/
def sliceComplete (s : State) (r : Ream) (i : Nat) : Bool :=
  if r.ownerOf s.domN i = s.rank then r.st == .gather || r.st == .done || decide (r.gfill ≤ tget 0 r.gcount i)
  else (List.range r.gslice).all fun m => r.arrived.contains (i * r.gslice + m)

/-- Every owned slice has its remainder summed (R338). -/
def remReady (s : State) (r : Ream) : Bool := !r.thin || (owned s r).all fun i => (tget {} r.slices i).remDone

/-! ### States (R327) -/

/-- A ream moves on from SCATTER, SUMMED and GATHER while its condition holds (R327); reaching DONE is counted. -/
def reamAdvance1 (s : State) (k j : Nat) : State :=
  match s.ream? k j with
  | none => s
  | some r =>
    let done (s : State) : State := (s.setReam k j { r with st := .done }).bump Reg.RED_DONE_COUNT 1
    match r.st with
    | .fill =>
      if r.red then (if r.fillTarget ≤ r.count then s.setReam k j { r with st := .scatter } else s)
      else if (owned s r).length * r.gfill ≤ r.count then s.setReam k j { r with st := .gather, gbase := gatherBase s k r } else s
    | .scatter =>
      if (owned s r).all fun i => (tget {} r.slices i).summed then s.setReam k j { r with st := .summed, count := if r.gath then 0 else r.count } else s
    | .summed =>
      if r.gath then
        (if (owned s r).length * r.gfill ≤ r.count then s.setReam k j { r with st := .gather, gbase := gatherBase s k r } else s)
      else if remReady s r then done s else s
    | .gather => if ((List.range r.nSlices).all fun i => sliceComplete s r i) && remReady s r then done s else s
    | _ => s

def reamAdvance (s : State) (k j : Nat) : State :=
  reamAdvance1 (reamAdvance1 (reamAdvance1 (reamAdvance1 s k j) k j) k j) k j

/-- A sheet of slot k is committed at an address, as one ream sees it (R328). -/
def reamSees (k va j : Nat) (s : State) : State :=
  match s.ream? k j with
  | none => s
  | some r =>
    if r.red ∧ r.src ≤ va ∧ va < r.src + r.nSlices * 32768 then
      match r.st with
      | .idle => s
      | .fill => reamAdvance (s.setReam k j { r with count := r.count + 1 }) k j
      | _ => (s.setBits Reg.RED_STATUS 8).bump Reg.RED_DISCARD_COUNT 1
    else if r.gath then
      match gatherSheet s k r va with
      | none => s
      | some g =>
        let i := g / r.gslice
        if r.ownerOf s.domN i = s.rank ∧ (r.st = .summed ∨ (r.st = .fill ∧ r.red = false)) then
          reamAdvance (s.setReam k j { r with count := r.count + 1, gcount := tmod 0 r.gcount i (· + 1) }) k j
        else s
    else s

/-- A queue write or accumulate-write of slot k commits a sheet at an address (R328). -/
def reamCommit (k va : Nat) (s : State) : State :=
  (s.redSlot k).reams.foldl (fun s e => reamSees k va e.1 s) s

/-! ### Held reads (R332, R341) -/

/-- A read of a sheet of slot k is held by a ream. -/
def reamHolds (s : State) (k va : Nat) (r : Ream) : Bool :=
  let inSum :=
    r.red && (r.st == .fill || r.st == .scatter) && decide (r.sumVa ≤ va) &&
      (match (owned s r)[(va - r.sumVa) / r.sumBytes]? with
       | some i => !(tget {} r.slices i).summed
       | none => false)
  let armed := r.st == .fill || r.st == .scatter || r.st == .summed || r.st == .gather
  let inGather := r.gath && armed &&
    (match gatherSheet s k r va with
     | some g => !sliceComplete s r (g / r.gslice)
     | none => false)
  inSum || inGather

/-- A queue read of a sheet is held at the controller: the address, and the gate value of a descriptor with WV 0. -/
def readHeld (s : State) (k va : Nat) (wv : Bool) (ver : Nat) : Bool :=
  ((s.redSlot k).reams.any fun e => reamHolds s k va e.2) ||
  (!wv && (s.redSlot k).gates.any fun g =>
    decide (g.2.1 ≤ va ∧ va < g.2.1 + g.2.2) && decide ((tget 0 (s.redSlot k).doorbells g.1).toNat < ver))

end Sys2Proof.Machine
end

