-- ==== Sys2Proof/Machine/Loader.lean ====
section
/-!
DEFINITION. What the loader checks of a binary image (R257–R263, R474, R323–R326, R341): the checks stand in the order
of R263, and the first that fails decides.
-/
namespace Sys2Proof.Machine

/-- A refusal: reason, section at fault, offset and tile (R263, R264). -/
structure Refuse where
  reason : Nat
  sect : Nat
  off : Nat
  tile : Nat
  deriving DecidableEq, Repr

/-- A check of the loader: a value, or the refusal. -/
abbrev Ld := Except Refuse

/-- Refused unless a condition holds. -/
def need (c : Bool) (reason sect off tile : Nat) : Ld Unit := if c then .ok () else .error ⟨reason, sect, off, tile⟩

/-- A check for every element of a list with its position. -/
def eachAt {α : Type} (f : Nat → α → Ld Unit) : Nat → List α → Ld Unit
  | _, [] => .ok ()
  | n, x :: r => do f n x; eachAt f (n + 1) r

def each {α : Type} (l : List α) (f : Nat → α → Ld Unit) : Ld Unit := eachAt f 0 l

/-- Records of n bytes, as many as are whole. -/
def records (n : Nat) (b : Bytes) : List Bytes :=
  (List.range (b.length / n)).foldl (fun (p : List Bytes × Bytes) _ => (p.2.take n :: p.1, p.2.drop n)) ([], b) |>.1.reverse

/-- Bytes [lo, lo + n) of a record are 0. -/
def zeroAt (b : Bytes) (lo n : Nat) : Bool := (sub b lo n).all (· == 0)

/-! ### The image -/

/-- An image whose checks are passed: what admission takes from it (R257, R258). -/
structure Image where
  raw : Bytes
  build : Nat
  qmode : Nat
  modules : Nat
  hbm : Nat
  rsv : List Nat
  spans : List SpanRec
  segs : List (Nat × Byte × Bool)
  /-- words of the bundles of each tile that has some -/
  code : List (TileId × List (List Word))
  rctx : List (BitVec 64)
  chains : List Bytes
  tsData : List Run
  rsvData : List Run
  hbmData : List Run
  wv : List Bytes
  patches : List (Nat × Patch)

/-- Header fields (R257). -/
def imLen (b : Bytes) : Nat := leAt b 12 4
def imSects (b : Bytes) : Nat := leAt b 42 2
def imSpans (b : Bytes) : Nat := leAt b 40 2

/-- Section table entries: TYPE, OFFSET, SIZE, CRC-32C. -/
def sectTable (b : Bytes) : List Bytes := records 16 (sub b 64 (16 * imSects b))

/-- The bytes of a section. -/
def sectBytes (b e : Bytes) : Bytes := sub b (leAt e 4 4) (leAt e 8 4)

/-- Reason 0x01. -/
def checkForm (b : Bytes) (seLen : Nat) : Ld Unit := do
  need (decide (64 ≤ b.length) && leAt b 0 4 == 0x4F5A0011 && leAt b 4 2 == 1) 1 0 0 0
  need (imLen b == seLen && imLen b == b.length && decide (64 + 16 * imSects b ≤ imLen b)) 1 0 12 0
  need (crc32c (b.take 48 ++ sub b 64 (16 * imSects b)) == BitVec.ofNat 32 (leAt b 48 4)) 1 0 48 0
  each (sectTable b) fun _ e => do
    need (decide (leAt e 4 4 + leAt e 8 4 ≤ imLen b)) 1 (leAt e 0 4) 0 0
    need (crc32c (sectBytes b e) == BitVec.ofNat 32 (leAt e 12 4)) 1 (leAt e 0 4) 0 0

/-- The section of a type, empty where the image has none. -/
def sect (b : Bytes) (ty : Nat) : Bytes :=
  match (sectTable b).find? fun e => leAt e 0 4 == ty with
  | some e => sectBytes b e
  | none => []

def sectCount (b : Bytes) (ty : Nat) : Nat := ((sectTable b).filter fun e => leAt e 0 4 == ty).length

/-- Reason 0x04, header and section table: reserved fields and encodings; the count of each type (R257, R258). -/
def checkHeader (b : Bytes) : Ld Unit := do
  let build := leAt b 7 1
  need (decide (build < 4) && build != 2 && decide (leAt b 8 1 ≤ 1) && decide (leAt b 9 1 ≤ 1)) 4 0 7 0
  need (decide (1 ≤ leAt b 10 2 ∧ leAt b 10 2 ≤ 1024)) 4 0 10 0
  need (zeroAt b 44 4 && zeroAt b 52 12) 4 0 44 0
  need (decide (1 ≤ imSpans b ∧ imSpans b ≤ 4096)) 4 0 40 0
  each (sectTable b) fun _ e =>
    let ty := leAt e 0 4
    need (decide (1 ≤ ty ∧ ty ≤ 10) && sectCount b ty == 1) 4 ty 0 0
  need (sectCount b 1 == 1) 4 1 0 0
  need (sectCount b 2 == 1) 4 2 0 0
  need (sectCount b 7 == 1) 4 7 0 0

/-! ### Records -/

/-- A span record (R259). -/
def spanOf (r : Bytes) : SpanRec :=
  { mode := BitVec.ofNat 2 (leAt r 0 1), polder := BitVec.ofNat 32 (leAt r 4 4), rctx := leAt r 8 4,
    rcount := leAt r 12 2, maint := leAt r 14 2 }

def checkSpan (n : Nat) (r : Bytes) : Ld Unit :=
  need (decide (leAt r 0 1 < 4) && zeroAt r 1 3 && decide (leAt r 12 2 ≤ 18432) &&
    (List.range 16).all fun k => fld (leAt r 4 4) (2 * k + 1) (2 * k) != 3) 4 2 n 0

/-- A segment record (R261). -/
def segOf (r : Bytes) : Nat × Byte × Bool := (leAt r 0 8, BitVec.ofNat 8 (leAt r 8 1), leAt r 9 1 == 1)

def checkSeg (n : Nat) (r : Bytes) : Ld Unit :=
  need (leAt r 0 8 % 0x200000 == 0 && decide (leAt r 8 1 < 8) && decide (leAt r 9 1 ≤ 1) && zeroAt r 10 6) 4 7 n 0

/-- Virtual addresses of the segments: in index order, each at the next boundary of its page size (R261). -/
def placeSegs : Nat → List (Nat × Byte × Bool) → List Segment
  | _, [] => []
  | va, (size, rights, big) :: r =>
    let a := if big then 0x40000000 else 0x200000
    let base := (va + a - 1) / a * a
    ⟨base, size, rights, big⟩ :: placeSegs (base + size) r

def segments (l : List (Nat × Byte × Bool)) : List Segment := placeSegs 0x40000000 l

/-- Runs of a data section (R258): tile-store data 5, reservoir data 6, HBM data 0x0A. -/
def runs (ty : Nat) : Nat → Nat → Bytes → Ld (List Run)
  | 0, _, _ => .ok []
  | fuel + 1, pos, b =>
    if b.isEmpty then .ok []
    else do
      let kb := if ty = 6 then 1 else 2
      let w := if ty = 0xA then 8 else 4
      let h := 4 + 2 * w
      let n := leAt b (4 + w) w
      let pad := if ty = 5 then (8 - (h + n) % 8) % 8 else 0
      need (decide (h + n ≤ b.length) && zeroAt b kb (4 - kb)) 4 ty pos (if ty = 5 then leAt b 0 2 else 0)
      let r ← runs ty fuel (pos + h + n + pad) (b.drop (h + n + pad))
      .ok (⟨leAt b 0 kb, leAt b 4 w, sub b h n⟩ :: r)

/-- Byte offset within a data section, whose runs stand from a position on, of the byte that an address of a store, levee or segment
is given last (R258, R264). -/
def runByte (ty : Nat) : Nat → List Run → Nat → Nat → Option Nat
  | _, [], _, _ => none
  | pos, r :: l, key, a =>
    let h := if ty = 0xA then 20 else 12
    let n := h + r.data.length
    match runByte ty (pos + n + if ty = 5 then (8 - n % 8) % 8 else 0) l key a with
    | some x => some x
    | none => if r.key = key ∧ r.addr ≤ a ∧ a < r.addr + r.data.length then some (pos + h + (a - r.addr)) else none

def runsOf (b : Bytes) (ty : Nat) : Ld (List Run) := runs ty (sect b ty).length 0 (sect b ty)

/-! ### Code -/

/-- Directory entry of a tile (R258): offset, bundle count. -/
def dirEntry (code : Bytes) (t : Nat) : Bytes := sub code (8 * t) 8

/-- The bundles of a tile, eight words each. -/
def bundlesOf (code e : Bytes) : List (List Word) :=
  (records 32 (sub code (leAt e 0 4) (32 * leAt e 4 2))).map toWords

/-- The C word with the predicate fields of tide and end taken out: those are refused with reason 0x07 (R238). -/
def bareC (w : Word) : Word := if wfld w 31 26 = 8 ∨ wfld w 31 26 = 9 then wput w 25 22 0 else w

/-- The operation of slot k of a bundle. -/
def opAt (t : TileId) (ws : List Word) (k : Nat) : SlotOp :=
  let w := ws.getD k 0
  decodeSlot t k (if k = 0 then bareC w else w)

def allTiles : List TileId := List.ofFn (n := 2304) fun i => i

/-- Reads the code section: the tiles with bundles (R258). -/
def readCode (code : Bytes) : List (TileId × List (List Word)) :=
  let dir := records 8 (code.take 18432)
  (allTiles.zip dir).filterMap fun p => if leAt p.2 4 2 = 0 then none else some (p.1, bundlesOf code p.2)

/-- Reason 0x04 in the code section: the directory, and a reserved encoding in a slot (R240). -/
def checkCode (code : Bytes) (tiles : List (TileId × List (List Word))) : Ld Unit := do
  need (decide (18432 ≤ code.length)) 4 1 0 0
  each (records 8 (code.take 18432)) fun t e =>
    need (zeroAt e 6 2 && (leAt e 4 2 == 0 || decide (leAt e 0 4 + 32 * leAt e 4 2 ≤ code.length))) 4 1 0 t
  each tiles fun _ p => each p.2 fun a ws =>
    need ((List.range 8).all fun k => opAt p.1 ws k != .reserved) 4 1 a p.1.val

/-- Loops that begin in a tile's code: address, number, END, immediate form (R245). -/
def loopsOf (t : TileId) (bs : List (List Word)) : List (Nat × Nat × Nat × Bool) :=
  (bs.zipIdx).filterMap fun p =>
    match opAt t p.1 0 with
    | .op (.loopI _ k e _) => some (p.2, k.val, e.val, true)
    | .op (.loopR _ k e _) => some (p.2, k.val, e.val, false)
    | _ => none

/-- Reasons 0x06 and 0x07 of one tile (R245, R238). -/
def checkSpanRefs (nspan nchain : Nat) (p : TileId × List (List Word)) : Ld Unit :=
  each p.2 fun a ws => do
    match opAt p.1 ws 0 with
    | .op (.tide _ n) => need (decide (n.val < nspan)) 6 1 a p.1.val
    | _ => .ok ()
    match opAt p.1 ws 7 with
    | .op (.chainRun _ c) => need (decide (c.val < nchain)) 6 1 a p.1.val
    | _ => .ok ()

def checkLoops (p : TileId × List (List Word)) : Ld Unit := do
  each p.2 fun a ws =>
    let w := ws.getD 0 0
    need (bareC w == w) 7 1 a p.1.val
  let ls := loopsOf p.1 p.2
  each ls fun _ l =>
    need (!l.2.2.2 || (decide (l.1 + 1 ≤ l.2.2.1) &&
      ls.all fun m => !(decide (m.2.1 < l.2.1) && decide (m.1 < l.1) && decide (l.1 ≤ m.2.2.1)) || decide (l.2.2.1 ≤ m.2.2.1))) 7 1 l.1 p.1.val

/-- Reason 0x08 (R228). -/
def checkPolders (n : Nat) (r : SpanRec) : Ld Unit :=
  let st (k : Nat) : Nat := wfld r.polder (2 * k + 1) (2 * k)
  need ((List.range 16).all fun p => st p != 2 || (List.range 16).all fun q => st q != 0 || (p / 4 != q / 4 && p % 4 != q % 4)) 8 2 n 0

/-! ### Reduction contexts (R260) -/

def rcF (r : BitVec 64) (hi lo : Nat) : Nat := fld r.toNat hi lo
def rcCode (c : Nat) : Bool := decide (c ≤ 4) || decide (8 ≤ c)

def checkRctxForm (n : Nat) (r : BitVec 64) : Ld Unit :=
  need (rcF r 38 12 == 0 && decide (rcF r 11 0 < 2304) && rcCode (rcF r 53 50) && rcCode (rcF r 49 46) && rcCode (rcF r 45 42) &&
    (rcF r 53 50 != 0 || decide (rcF r 63 54 < 768))) 4 3 n (rcF r 11 0)

/-- Reason 0x09: an input of a context names a lower-numbered one, and its output a higher-numbered one. -/
def checkRctxOrder (n : Nat) (c : BitVec 64) : Ld Unit :=
  let k := rcF c 41 39
  need (decide (rcF c 45 42 < 8 + k) && decide (rcF c 49 46 < 8 + k) && (decide (rcF c 53 50 < 8) || decide (8 + k < rcF c 53 50)))
    9 3 n (rcF c 11 0)

/-- Reason 0x09: the records of one span lie in the section, and none repeats a context. -/
def checkRctx (recs : List (BitVec 64)) (n : Nat) (r : SpanRec) : Ld Unit := do
  need (r.rcount == 0 || decide (r.rctx + r.rcount ≤ recs.length)) 9 2 n 0
  let l := (recs.drop r.rctx).take r.rcount
  each l fun m c =>
    need (!((l.take m).any fun d => rcF d 11 0 == rcF c 11 0 && rcF d 41 39 == rcF c 41 39)) 9 3 (r.rctx + m) (rcF c 11 0)

/-! ### Chains (R254, R256) -/

/-- A vector operation that a chain may put on the rows of a drain, or before a write of the rows (R254). -/
def rowOp : SlotOp → Bool
  | .op i =>
    match i with
    | .vadd .. | .vsub .. | .vmul .. | .vfma .. | .vfnma .. | .vmin .. | .vmax .. | .vminn .. | .vmaxn .. | .vabs .. | .vneg ..
    | .vcmp .. | .vsel .. | .vdiv .. | .vsqrt .. | .vtr .. | .vred .. | .vcvt .. | .vcvti .. | .viadd .. | .visub .. | .viand ..
    | .vior .. | .vixor .. | .visll .. | .visrl .. => true
    | _ => false
  | _ => false

/-- Two stages that may follow one another (R254). -/
def stagePair (a b : SlotOp) : Bool :=
  match a, b with
  | .op (.mmStream _ arr _ _ _ _ set _), .op (.couchDrain _ arr' set' _ _ _ _) => arr == arr' && set == set'
  | .op (.couchDrain ..), b => rowOp b
  | a, .op (.vst ..) => rowOp a
  | a, .op (.vFelt ..) => rowOp a
  | a, .op (.vLp ..) => rowOp a
  | _, _ => false

/-- The stages of an entry. -/
def entryStages (e : Bytes) : List (Nat × SlotOp) :=
  (List.range (leAt e 0 1)).map fun j => (leAt e (20 + j) 1, decodeSlot 0 (leAt e (20 + j) 1) (leWord (sub e (4 + 4 * j) 4)))

def chainSlot (k : Nat) : Bool := k == 2 || k == 3 || k == 5 || k == 6

/-- Reserved bytes and encodings of an entry: reason 0x04. -/
def checkChainForm (n : Nat) (e : Bytes) : Ld Unit :=
  need (zeroAt e 1 3 && zeroAt e 24 8 && (List.range 4).all fun j =>
    !chainSlot (leAt e (20 + j) 1) || decodeSlot 0 (leAt e (20 + j) 1) (leWord (sub e (4 + 4 * j) 4)) != .reserved) 4 4 n 0

/-- Pairs of stages that stand next to one another. -/
def pairsOk : List SlotOp → Bool
  | a :: b :: r => stagePair a b && pairsOk (b :: r)
  | _ => true

/-- Reason 0x0A. -/
def checkChain (n : Nat) (e : Bytes) : Ld Unit :=
  let c := leAt e 0 1
  let l := entryStages e
  need (decide (1 ≤ c ∧ c ≤ 4) && zeroAt e (4 + 4 * c) (16 - 4 * c) &&
    (l.all fun p => chainSlot p.1 && p.2 != .nop && p.2 != .reserved) &&
    ((List.range c).all fun j => wfld (leWord (sub e (4 + 4 * j) 4)) 25 22 == 0) && pairsOk (l.map (·.2))) 0xA 4 n 0

/-! ### Weight versions (R474, R119) -/

/-- A copy of an entry: segment, offset, size. -/
def wvPart (e : Bytes) (c : Nat) : Nat × Nat × Nat := (leAt e (16 * c) 2, leAt e (16 * c + 4) 6, leAt e (16 * c + 10) 6)

def wvOverlap (a b : Nat × Nat × Nat) : Bool := a.1 == b.1 && decide (a.2.1 < b.2.1 + b.2.2 ∧ b.2.1 < a.2.1 + a.2.2)

/-- Reason 0x0C; for an offset or size that is no multiple of 256 the reason is open (R474; log entry 83). -/
def checkWv (segs : List Segment) (all : List Bytes) (n : Nat) (e : Bytes) : Ld Unit :=
  let a := wvPart e 0
  let b := wvPart e 1
  let inside (x : Nat × Nat × Nat) : Bool :=
    match segs[x.1]? with
    | some g => decide (x.2.1 + x.2.2 ≤ g.size) && x.2.2 != 0
    | none => false
  let aligned (x : Nat × Nat × Nat) : Bool := x.2.1 % 256 == 0 && x.2.2 % 256 == 0
  if !aligned a || !aligned b then .error ⟨Config.wvAlignReason.toNat, 8, n, 0⟩
  else need (a.2.2 == b.2.2 && inside a && inside b && !wvOverlap a b &&
    (all.take n).all fun o => [wvPart o 0, wvPart o 1].all fun x => !wvOverlap x a && !wvOverlap x b) 0xC 8 n 0

/-! ### Patches (R262) -/

/-- Kind and contents of a patch record. -/
def patchOf (r : Bytes) : Nat × Patch :=
  let loc := leAt r 4 4
  (leAt r 0 1, ⟨leAt r 1 1, leAt r 2 1, leAt r 3 1, loc % 4096, loc / 4096, BitVec.ofNat 64 (leAt r 8 8)⟩)

/-- Value of a patch over a base: base plus the signed addend, if it lies within 0 to 2^48 − 1. -/
def patchVal (base : Nat) (p : Patch) : Option Nat :=
  let v : Int := (base : Int) + sgn p.addend.toNat 64
  if 0 ≤ v ∧ v < 2 ^ 48 then some v.toNat else none

/-- The opcode in the S slot of a bundle of a tile. -/
def sOpcode (code : List (TileId × List (List Word))) (t a : Nat) : Nat :=
  match code.find? fun p => p.1.val == t with
  | some p => wfld ((p.2.getD a []).getD 1 0) 31 26
  | none => 0

/-- Reason 0x0D. -/
def checkPatch (segs : List Segment) (code : List (TileId × List (List Word))) (n : Nat) (k : Nat × Patch) : Ld Unit :=
  let p := k.2
  let base := if k.1 = 0 then (segs[p.index]?).map (·.va) else none
  let val := if k.1 = 0 then (base.bind fun b => patchVal b p).isSome else k.1 == 1 && decide (p.index < 8)
  let place := if p.sect = 5 then
      (p.form == 0 && decide (p.off + 32 ≤ tsSize)) || (p.form == 1 && decide (p.off + 4 ≤ tsSize)) || (p.form == 2 && decide (p.off + 2 ≤ tsSize))
    else p.sect == 1 && ((p.form == 3 && sOpcode code p.tile p.off == 0x18 && sOpcode code p.tile (p.off + 1) == 0x19) ||
      (p.form == 4 && sOpcode code p.tile p.off == 0x18))
  need (decide (p.tile < 2304) && val && place) 0xD 9 n p.tile

/-- Reason 0x0B: a descriptor that a patch of form 0 names asks for a fallback of relaxed mode (R23). -/
def checkMode (qmode : Nat) (data : List Run) (k : Nat × Patch) : Ld Unit :=
  let p := k.2
  let b := data.foldl (fun v r => if r.key == p.tile && decide (r.addr ≤ p.off ∧ p.off < r.addr + r.data.length) then leAt r.data (p.off - r.addr) 1 else v) 0
  need (qmode == 1 || p.form != 0 || p.sect != 5 || (fld b 7 6 != 1 && fld b 7 6 != 2)) 0xB 5
    ((runByte 5 0 data p.tile p.off).getD 0) p.tile

/-! ### The reduction plan (R323–R326, R341) -/

/-- Contents of segment 0 as the HBM data section gives them. -/
def segZero (data : List Run) : Mem := data.foldl (fun m r => if r.key = 0 then mwrite m r.addr r.data else m) []

/-- The ream and gate records of the plan, if the program has one. -/
def planOf (data : List Run) : Option (Bytes × List Bytes × List Bytes) :=
  let m := segZero data
  let h := mread m 0 64
  if leAt h 0 4 = 0x4F5A0014 then
    let nr := leAt h 4 2
    let ng := leAt h 6 1
    some (h, (List.range nr).map (fun j => mread m (64 + 64 * j) 64), (List.range ng).map fun g => mread m (64 + 64 * nr + 32 * g) 32)
  else none

/-- Slices a rank owns, n_o (R325). -/
def Ream.nOwned (r : Ream) (n rank : Nat) : Nat := ((List.range r.nSlices).filter fun i => r.ownerOf n i == rank).length

/-- Sheets of RM_STAGE (R326). -/
def Ream.stageSheets (r : Ream) (n own : Nat) : Nat :=
  let se := r.elems * 4 / 256
  own * (se + (n - 1) * r.contrib) + if r.thin then own * (se + (n - 1) * 128) else 0

/-- The regions of a ream with their sizes in bytes and the rights they need (R326): those in RM_SRC to RM_GVA. -/
def Ream.regions (n rank : Nat) (wv : Nat → List Nat) (r : Ream) : List (Nat × Nat × Nat) :=
  let own := r.nOwned n rank
  (if r.red then [(r.src, r.nSlices * 32768, 6), (r.sumVa, own * r.sumBytes, 6), (r.stageVa, r.stageSheets n own * 256, 6)] else []) ++
  (if r.thin then [(r.remVa, own * 32768, 0)] else []) ++
  (if r.gath then (if r.gwv then (wv r.gentry).map fun b => (b + r.gva, r.nSlices * r.gslice * 256, 2)
    else [(r.gva, r.nSlices * r.gslice * 256, 2)]) else [])

/-- A ream record keeps R324. -/
def Ream.ok (n : Nat) (r : Ream) : Bool :=
  fld (r.fd 0 1) 7 4 == 0 && r.fd 3 1 == 0 && (r.red || r.gath) && (r.fmt == 8 || r.fmt == 10) && (r.ofmt == 8 || r.ofmt == 10) &&
  (if r.thin then r.red && r.fmt == 8 && decide (2 ≤ r.tlog ∧ r.tlog ≤ 8) && decide (r.nSlices ≤ 1024) else r.tlog == 0) &&
  decide (32 ≤ r.nSlices ∧ r.nSlices ≤ 2048) && decide (r.owner0 < n) && decide (1 ≤ r.gslice ∧ r.gslice ≤ 128) &&
  decide (1 ≤ r.period) && decide (r.phase < r.period) &&
  [r.src, r.sumVa, r.stageVa, r.remVa, r.gva].all fun a => a % 256 == 0 && decide (a < 2 ^ 48)

/-- Rights of the page at an address, if a segment maps it. -/
def rightsAt (segs : List Segment) (va : Nat) : Option Nat :=
  (segs.find? fun g => decide (g.va ≤ va ∧ va < g.va + g.size)).map (·.rights.toNat)

/-- Every page of a region is mapped with the rights. -/
def regionOk (segs : List Segment) (r : Nat × Nat × Nat) : Bool :=
  (rangeFrom (r.1 / 0x200000) ((r.1 + r.2.1 + 0x1FFFFF) / 0x200000 - r.1 / 0x200000)).all fun p =>
    match rightsAt segs (p * 0x200000) with
    | some g => g &&& r.2.2 == r.2.2
    | none => false

/-- No two regions of a list overlap. -/
def disjoint : List (Nat × Nat × Nat) → Bool
  | [] => true
  | a :: r => (r.all fun b => decide (a.1 + a.2.1 ≤ b.1 ∨ b.1 + b.2.1 ≤ a.1)) && disjoint r

/-- A gate record keeps R341. -/
def gateOk (g : Bytes) : Bool :=
  decide (leAt g 0 1 < 64) && zeroAt g 1 7 && leAt g 8 8 % 256 == 0 && leAt g 16 8 % 256 == 0 && zeroAt g 24 8

/-- Addresses of the two copies of a weight version entry. -/
def wvBases (segs : List Segment) (wv : List Bytes) (e : Nat) : List Nat :=
  match wv[e]? with
  | none => []
  | some b => [0, 1].filterMap fun c => (segs[(wvPart b c).1]?).map fun g => g.va + (wvPart b c).2.1

/-- The plan keeps R323 to R326 and R341: reason 0x04. -/
def checkPlan (n rank : Nat) (segs : List Segment) (wv : List Bytes) (data : List Run) : Ld Unit :=
  match planOf data with
  | none => .ok ()
  | some (h, rs, gs) => do
    let at_ (a : Nat) : Nat := (runByte 0xA 0 data 0 a).getD 0
    need (zeroAt h 7 57 && decide (rs.length ≤ 4095) && decide (gs.length ≤ 64)) 4 0xA (at_ 0) 0
    let reams := rs.map fun b => ({ raw := b } : Ream)
    each reams fun j r => do
      need (r.ok n) 4 0xA (at_ (64 + 64 * j)) 0
      need (!r.gwv || decide (r.gentry < wv.length)) 4 0xA (at_ (64 + 64 * j)) 0
      need ((r.regions n rank (wvBases segs wv)).all (regionOk segs)) 4 0xA (at_ (64 + 64 * j)) 0
    need (disjoint (reams.flatMap fun r => r.regions n rank (wvBases segs wv))) 4 0xA (at_ 0) 0
    each gs fun g b => need (gateOk b) 4 0xA (at_ (64 + 64 * rs.length + 32 * g)) 0

/-! ### All checks (R263) -/

/-- Reason 0x0E: data outside a declared size. -/
def checkSizes (b : Bytes) (segs : List (Nat × Byte × Bool)) (ts rsv hbm : List Run) : Ld Unit := do
  let decl (l : Nat) : Nat := leAt b (24 + 4 * l) 4
  need ((List.range 4).all fun l => decide (decl l ≤ 0x6000000)) 0xE 0 24 0
  each ts fun n r => need (decide (r.key < 2304) && decide (r.addr + r.data.length ≤ tsSize)) 0xE 5 n r.key
  each rsv fun n r => need (decide (r.key < 4) && r.addr % 256 == 0 && r.data.length % 256 == 0 && decide (r.addr + r.data.length ≤ decl r.key)) 0xE 6 n 0
  each hbm fun n r => need (match segs[r.key]? with
    | some g => decide (r.addr + r.data.length ≤ g.1)
    | none => false) 0xE 0xA n 0
  need (decide (segs.foldl (fun t g => t + g.1) 0 ≤ leAt b 16 8)) 0xE 7 0 0

/-- The loader's checks in their order: the image, or the first failure. `n` modules, own rank, and the latency set. -/
def loadCheck (n rank dlset : Nat) (b : Bytes) (seLen : Nat) : Ld Image := do
  checkForm b seLen
  need (leAt b 6 1 == dlset) 2 0 6 0
  need (leAt b 10 2 == n) 3 0 10 0
  checkHeader b
  let spanRecs := records 16 (sect b 2)
  need ((sect b 2).length == 16 * imSpans b) 4 2 0 0
  each spanRecs checkSpan
  need ((sect b 7).length % 16 == 0) 4 7 0 0
  let segRecs := records 16 (sect b 7)
  each segRecs checkSeg
  let segs := segRecs.map segOf
  let placed := segments segs
  let code := readCode (sect b 1)
  checkCode (sect b 1) code
  need ((sect b 4).length % 32 == 0 && decide ((sect b 4).length ≤ 8192)) 4 4 0 0
  let chains := records 32 (sect b 4)
  each chains checkChainForm
  need ((sect b 3).length % 8 == 0) 4 3 0 0
  let rctx := (records 8 (sect b 3)).map fun r => BitVec.ofNat 64 (leNat r)
  each rctx checkRctxForm
  let ts ← runsOf b 5
  let rsv ← runsOf b 6
  let hbm ← runsOf b 0xA
  need ((sect b 8).length % 32 == 0 && decide ((sect b 8).length ≤ 131072)) 4 8 0 0
  let wv := records 32 (sect b 8)
  each wv fun e r => need (zeroAt r 2 2 && zeroAt r 18 2) 4 8 e 0
  need ((sect b 9).length % 16 == 0) 4 9 0 0
  let patches := (records 16 (sect b 9)).map patchOf
  checkPlan n rank placed wv hbm
  each code fun _ p => need (decide (p.2.length ≤ 1024)) 5 1 0 p.1.val
  each code fun _ p => checkSpanRefs (imSpans b) chains.length p
  each code fun _ p => checkLoops p
  let spans := spanRecs.map spanOf
  each spans checkPolders
  each rctx checkRctxOrder
  each spans (checkRctx rctx)
  each chains checkChain
  each patches fun _ p => checkMode (leAt b 8 1) ts p
  each wv (checkWv placed wv)
  each patches (checkPatch placed code)
  checkSizes b segs ts rsv hbm
  .ok { raw := b, build := leAt b 7 1, qmode := leAt b 8 1, modules := leAt b 10 2, hbm := leAt b 16 8,
        rsv := (List.range 4).map fun l => leAt b (24 + 4 * l) 4, spans := spans, segs := segs, code := code, rctx := rctx,
        chains := chains, tsData := ts, rsvData := rsv, hbmData := hbm, wv := wv, patches := patches }

end Sys2Proof.Machine
end

