-- ==== Sys2Proof/Machine/Admit.lean ====
section
/-!
DEFINITION. Admission: reservation (R141, R142), placement (R139, R261), loading into the slot's reservation and save
area (R143, R375), patches (R262); and release.
-/
namespace Sys2Proof.Machine

/-! ### Frames and granules -/

/-- 2 MiB frames of the HBM. -/
abbrev nFrames : Nat := 491520

/-- Insertion into a list of runs by first element. -/
def insRun (a : Nat × Nat) : List (Nat × Nat) → List (Nat × Nat)
  | [] => [a]
  | b :: r => if a.1 ≤ b.1 then a :: b :: r else b :: insRun a r

/-- The gaps that runs leave between lo and hi; the runs stand in rising order. -/
def gaps (lo hi : Nat) : List (Nat × Nat) → List (Nat × Nat)
  | [] => if lo < hi then [(lo, hi - lo)] else []
  | (a, n) :: r => if lo < a then (lo, a - lo) :: gaps (max lo (a + n)) hi r else gaps (max lo (a + n)) hi r

/-- Runs of frames in use: reserved, save areas, retired frames (R412). -/
def usedFrames (s : State) : List (Nat × Nat) :=
  let l := s.slots.flatMap fun e => e.2.frames ++ (match e.2.save with
    | some f => [(f * 512, 512)]
    | none => [])
  (l ++ s.mem.retired.map fun f => (f, 1)).foldl (fun acc a => insRun a acc) []

/-- Free runs of frames, rising. -/
def freeFrames (s : State) : List (Nat × Nat) := gaps 0 nFrames (usedFrames s)

/-- Wholly free 1 GiB frames among free runs, rising. -/
def freeGiB (l : List (Nat × Nat)) : List Nat :=
  l.flatMap fun r => rangeFrom ((r.1 + 511) / 512) ((r.1 + r.2) / 512 - (r.1 + 511) / 512)

/-- Free runs without a run of frames. -/
def takeRun (a n : Nat) (l : List (Nat × Nat)) : List (Nat × Nat) :=
  l.flatMap fun r =>
    if a + n ≤ r.1 ∨ r.1 + r.2 ≤ a then [r]
    else (if r.1 < a then [(r.1, a - r.1)] else []) ++ (if a + n < r.1 + r.2 then [(a + n, r.1 + r.2 - (a + n))] else [])

/-- The lowest n free frames: the runs taken and those left. -/
def takeFrames : Nat → List (Nat × Nat) → List (Nat × Nat) × List (Nat × Nat)
  | _, [] => ([], [])
  | n, (a, m) :: r =>
    if n = 0 then ([], (a, m) :: r)
    else if m ≤ n then
      let t := takeFrames (n - m) r
      ((a, m) :: t.1, t.2)
    else ([(a, n)], (a + n, m - n) :: r)

/-- Runs of granules of a levee in use, and free ones (R141). -/
def freeGranules (s : State) (l : Nat) : List (Nat × Nat) :=
  gaps 0 0x600 ((s.slots.map fun e => tget (0, 0) e.2.win l).foldl (fun acc a => if a.2 = 0 then acc else insRun a acc) [])

/-- The first free range of a levee that is large enough. -/
def window (s : State) (l need : Nat) : Option (Nat × Nat) :=
  if need = 0 then some (0, 0) else ((freeGranules s l).find? fun r => decide (need ≤ r.2)).map fun r => (r.1, need)

/-! ### Reservation (R141) -/

/-- A page of a segment: its address, its rights, its frame (a 1 GiB frame for a large page), large. -/
abbrev PageMap := List (Nat × Nat × Nat × Bool)

/-- What a reservation holds. -/
structure Reserved where
  save : Nat
  frames : List (Nat × Nat)
  win : Tbl (Nat × Nat)
  pages : PageMap

/-- The 1 GiB pages of the segments that ask for them, while free 1 GiB frames last (R139, R141): the chunks of 1 GiB
placed, and the free runs left. -/
def bigPages (segs : List Segment) (free : List (Nat × Nat)) : PageMap × List (Nat × Nat) :=
  (segs.flatMap fun g => if g.big then (List.range (g.size / 0x40000000)).map fun k => (g.va + k * 0x40000000, g.rights.toNat) else []).foldl
    (fun (p : PageMap × List (Nat × Nat)) c =>
      match (freeGiB p.2).head? with
      | some f => (p.1 ++ [(c.1, c.2, f, true)], takeRun (f * 512) 512 p.2)
      | none => p) ([], free)

/-- The 2 MiB pages that remain, in segment order. -/
def smallPages (segs : List Segment) (big : PageMap) : List (Nat × Nat) :=
  segs.flatMap fun g => (List.range (g.size / 0x200000)).filterMap fun k =>
    let va := g.va + k * 0x200000
    if big.any fun p => decide (p.1 ≤ va ∧ va < p.1 + 0x40000000) then none else some (va, g.rights.toNat)

/-- The frames of runs, one by one. -/
def runList (l : List (Nat × Nat)) : List Nat := l.flatMap fun r => rangeFrom r.1 r.2

/-- The reservation of an image, or none where a part does not fit. -/
def reserve (s : State) (im : Image) : Option Reserved :=
  let free := freeFrames s
  match (freeGiB free).getLast? with
  | none => none
  | some save =>
    let segs := segments im.segs
    let b := bigPages segs (takeRun (save * 512) 512 free)
    let small := smallPages segs b.1
    let want := (im.hbm + 0x1FFFFF) / 0x200000
    let rest := want - b.1.length * 512
    let t := takeFrames rest b.2
    let got := t.1.foldl (fun n r => n + r.2) 0
    let wins := (List.range 4).map fun l => window s l ((im.rsv.getD l 0 + 0xFFFF) / 0x10000)
    if got < rest ∨ wins.any (·.isNone) then none
    else
      let win : Tbl (Nat × Nat) := (wins.zipIdx).foldl (fun w x => tset (0, 0) w x.2 (x.1.getD (0, 0))) []
      some { save := save, frames := (b.1.map fun p => (p.2.2.1 * 512, 512)) ++ t.1, win := win,
             pages := b.1 ++ (small.zip (runList t.1)).map fun x => (x.1.1, x.1.2, x.2, false) }

/-! ### Translation tables (R137, R138) -/

def putLe (pa v n : Nat) (s : State) : State := s.hbmBytes pa (leBytes v n)

/-- The tables: level 1 at the start of their region, the level-2 tables behind it in rising address (log entry 22). -/
def writeTables (save : Nat) (pages : PageMap) (s : State) : State :=
  let base := save * 0x40000000 + tableOff
  let l1 (va : Nat) : Nat := base + 8 * (va / 0x40000000)
  let small := pages.filter fun p => !p.2.2.2
  let gibs := (small.map fun p => p.1 / 0x40000000).eraseDups
  let l2 (k : Nat) : Nat := base + 0x200000 + 0x1000 * k
  let s := pages.foldl (fun s p => if p.2.2.2 then putLe (l1 p.1) (p.2.2.1 * 0x40000000 + 4 * p.2.1 + 3) 8 s else s) s
  let s := (gibs.zipIdx).foldl (fun s g => putLe (l1 (g.1 * 0x40000000)) (l2 g.2 + 1) 8 s) s
  small.foldl (fun s p =>
    putLe (l2 (gibs.idxOf (p.1 / 0x40000000)) + 8 * (p.1 / 0x200000 % 512)) (p.2.2.1 * 0x200000 + 4 * p.2.1 + 3) 8 s) s

/-- Physical address behind a mapped address. -/
def pageAddr (pages : PageMap) (va : Nat) : Option Nat :=
  (pages.findSome? fun p =>
    let z := if p.2.2.2 then 0x40000000 else 0x200000
    if p.1 ≤ va ∧ va < p.1 + z then some (p.2.2.1 * z + (va - p.1)) else none)

/-- Data written through the pages, cut at the ends of 2 MiB pages. -/
def writeVa (pages : PageMap) : Nat → Nat → Bytes → State → State
  | 0, _, _, s => s
  | fuel + 1, va, data, s =>
    if data.isEmpty then s
    else
      let n := min data.length (toPageEnd va)
      let s := match pageAddr pages va with
        | some pa => s.hbmBytes pa (data.take n)
        | none => s
      writeVa pages fuel (va + n) (data.drop n) s

/-! ### Loading (R375) -/

/-- Offsets in a save area (R143). -/
abbrev rsvOffset : Nat := 0x1B000000
abbrev ctlOffset : Nat := 0x33000000
abbrev imemOffset : Nat := 0x34000000

/-- The words of bundles as bytes in an instruction memory. -/
def codeBytes (bs : List (List Word)) : Bytes := bs.flatMap fromWords

/-- A patched value written to the slot's copies in its save area (R262). -/
def putPatch (save : Nat) (p : Patch) (v : Nat) (s : State) : State :=
  let base := save * 0x40000000
  let word (a : Nat) (f : Word → Word) (s : State) : State := putLe a (f (leWord (s.hbmB a 4))).toNat 4 s
  let ins (a : Nat) : Nat := base + imemOffset + p.tile * 0x8000 + 32 * a + 4
  let ts := base + p.tile * tsSize + p.off
  match p.form with
  | 0 => putLe (ts + 8) v 6 s
  | 1 => putLe ts (v % 2 ^ 32) 4 s
  | 2 => putLe ts (v / 2 ^ 32) 2 s
  | 3 => word (ins (p.off + 1)) (fun w => wput w 16 0 (fld v 31 15)) (word (ins p.off) (fun w => wput w 16 0 (fld v 14 0)) s)
  | _ => word (ins p.off) (fun w => wput w 16 0 (fld v 47 32)) s

/-- Both copies of a weight version entry at admission (R111). -/
def wvOf (segs : List Segment) (e : Bytes) : WvEntry :=
  let copy (c : Nat) (ver : Option Nat) : WvCopy :=
    let p := wvPart e c
    { ver := ver, va := ((segs[p.1]?).map (·.va)).getD 0 + p.2.1, size := p.2.2 }
  { c0 := copy 0 (some 0), c1 := copy 1 none, newest := 0 }

/-- The reduction state of a program at admission (R323, R341). -/
def redOf (data : List Run) : RedSlot :=
  match planOf data with
  | none => {}
  | some (_, rs, gs) =>
    { reams := rs.zipIdx.map fun p => (p.2, { raw := p.1 }), gates := gs.map fun g => (leAt g 0 1, leAt g 8 8, leAt g 16 8) }

/-- Everything ADMIT writes into a reservation, and the slot as admitted (R357, R375). -/
def load (f : FnNo) (k : Nat) (im : Image) (r : Reserved) (s : State) : State :=
  let segs := segments im.segs
  let base := r.save * 0x40000000
  let s := writeTables r.save r.pages s
  let s := im.hbmData.foldl (fun s x => writeVa r.pages (x.data.length + 1) (((segs[x.key]?).map (·.va)).getD 0 + x.addr) x.data s) s
  let s := im.rsvData.foldl (fun s x =>
    let w := tget (0, 0) r.win x.key
    ((records 256 x.data).zipIdx).foldl (fun s y =>
      let a := x.key * 0x6000000 + w.1 * 0x10000 + x.addr + 256 * y.2
      let s := s.eccFresh placeRsv (a / 8) 32
      { s with mem := { s.mem with rsv := mwrite s.mem.rsv a y.1, rsvChk := tset zeroChk s.mem.rsvChk (a / 256) (crc32c y.1) } }) s) s
  let s := im.code.foldl (fun s p => s.hbmBytes (base + imemOffset + p.1.val * 0x8000) (codeBytes p.2)) s
  let s := im.tsData.foldl (fun s x => s.hbmBytes (base + x.key * tsSize + x.addr) x.data) s
  let s := im.patches.foldl (fun s p =>
    if p.1 = 0 then
      match patchVal (((segs[p.2.index]?).map (·.va)).getD 0) p.2 with
      | some v => putPatch r.save p.2 v s
      | none => s
    else s) s
  let s := s.setSlot k { state := .empty, owner := some f, debug := bitN im.build 0, hazStop := bitN im.build 1, relaxed := im.qmode == 1,
                         modules := im.modules, hbmMiB := 2 * (r.frames.foldl (fun n x => n + x.2) 0), frames := r.frames, save := some r.save,
                         win := r.win, segs := segs, spans := im.spans, rctx := im.rctx, chainTab := im.chains,
                         patches := im.patches.filterMap (fun p => if p.1 = 1 then some p.2 else none),
                         coded := im.code.map (·.1.val), wv := im.wv.zipIdx.map fun p => (p.2, wvOf segs p.1), image := im.raw }
  let s := s.setRedSlot k (redOf im.hbmData)
  let s := (((s.setReg Reg.TRN_WV_STALL_COUNT 0).setReg Reg.TRN_WV_STALL_CYC_LO 0).setReg Reg.TRN_WV_STALL_CYC_HI 0).setReg Reg.TRN_WV_FAULT_COUNT 0
  s.slotTo k .admitted

/-! ### Refusal (R264, R367) -/

/-- ADMISSION_REFUSED, PRG_REJECT and PRG_REJECT_LOC. -/
def refuse (f : FnNo) (slot : Nat) (r : Refuse) (s : State) : State :=
  let s := s.setReg Reg.PRG_REJECT (BitVec.ofNat 32 (r.reason * 2 ^ 24 + slot % 16 * 2 ^ 20 + r.sect % 65536))
  let s := s.setReg Reg.PRG_REJECT_LOC (BitVec.ofNat 32 (r.off % 2 ^ 20 * 4096 + r.tile % 4096))
  s.log1 Ev.ADMISSION_REFUSED (Src.fn f.val)
    (leBytes f.val 1 ++ leBytes slot 1 ++ leBytes r.reason 1 ++ leBytes 0 1 ++ leBytes r.sect 2 ++ leBytes r.tile 2 ++ leBytes r.off 4)

/-! ### Release (R142, R357) -/

/-- Zero-fill of HBM bytes with fresh checks and check bits (R404, R408). -/
def zeroHbm (pa n : Nat) (s : State) : State :=
  { s with mem := { s.mem with hbm := dropRange s.mem.hbm pa n, hbmChk := dropRange s.mem.hbmChk (pa / 256) (n / 256),
                               ecc := dropRange (dropRange s.mem.ecc (eccKey placeHbm (pa / 128)) (n / 128)) (eccKey placeDie (pa / 128)) (n / 128) } }

/-- Zero-fill of a range of a reservoir. -/
def zeroRsv (l off n : Nat) (s : State) : State :=
  let a := l * 0x6000000 + off
  { s with mem := { s.mem with rsv := dropRange s.mem.rsv a n, rsvChk := dropRange s.mem.rsvChk (a / 256) (n / 256),
                               ecc := dropRange s.mem.ecc (eccKey placeRsv (a / 8)) (n / 8) } }

/-- The frames with a recorded error that are free are tested: the outcome is open (log entry 23); a frame that shows an
error is retired until cold reset (R412). -/
def testFrames (s : State) : State :=
  let free := freeFrames s
  let isFree (f : Nat) : Bool := free.any fun r => decide (r.1 ≤ f ∧ f < r.1 + r.2)
  s.mem.recorded.foldl (fun s f =>
    if isFree f then
      let w := s.takeFree
      let s := zeroHbm (f * 0x200000) 0x200000 { w.2 with mem := { w.2.mem with recorded := w.2.mem.recorded.filter (· != f) } }
      if w.1.getLsbD 0 then
        { s with mem := { s.mem with retired := s.mem.retired ++ [f] } }.bump Reg.RAS_RETIRED 1
      else s
    else s) s

/-- The slot is emptied: its frames, windows and save area are zero-filled and return to the pool; its taint, its
reductions and its measurement go (R142, R411, R432). -/
def releaseSlot (k : Nat) (s : State) : State :=
  let p := s.slot k
  let s := p.frames.foldl (fun s r => zeroHbm (r.1 * 0x200000) (r.2 * 0x200000) s) s
  let s := match p.save with
    | some f => zeroHbm (f * 0x40000000) 0x40000000 s
    | none => s
  let s := (List.range 4).foldl (fun s l =>
    let w := tget (0, 0) p.win l
    zeroRsv l (w.1 * 0x10000) (w.2 * 0x10000) s) s
  let s := s.slotTo k .empty
  let s := (s.setSlot k {}).setRedSlot k {}
  testFrames (s.setReg Reg.RAS_TAINT (s.reg Reg.RAS_TAINT &&& ~~~(BitVec.ofNat 32 (2 ^ k))))

end Sys2Proof.Machine
end

