-- ==== Sys2Proof/Machine/Clocking.lean ====
section
/-!
DEFINITION. Clocking: the stretch graph (R213, R219–R222), freeboard monitors (R221, R223), operating points (R224, R225)
and the sluice occupancy that its monitor register shows (R216, R232).
-/
namespace Sys2Proof.Machine

/-! ### The graph (R213) -/

/-- Nodes that are neighbours: polders sharing a seam, and a grid side with the polders along its edge. -/
def adjacent (x y : Nat) : Bool :=
  let edge (l p : Nat) : Bool :=
    (l == 16 && p < 4) || (l == 17 && p < 16 && p % 4 == 3) || (l == 18 && 12 ≤ p && p < 16) || (l == 19 && p < 16 && p % 4 == 0)
  if x < 16 ∧ y < 16 then dist (x / 4) (y / 4) + dist (x % 4) (y % 4) == 1
  else edge x y || edge y x

/-- Nodes that take part in propagation: grid sides, and polders that are ACTIVE or DOWN (R227). -/
def State.inGraph (s : State) (x : Nat) : Bool := decide (16 ≤ x) || decide (s.polder x ≤ 1)

def nodes : List Nat := List.range 20

/-! ### Counts (R219) -/

/-- n_X at the end of cycle c − k, c the current one. -/
def State.cnt (s : State) (x k : Nat) : Nat := (tget [] s.clk.hist x).getD k 0

/-- Margin a monitor reads now. -/
def State.marginAt (s : State) (x m : Nat) : Nat := tget 255 s.clk.margin (x * 9 + m)

/-- Monitors of a node (R223). -/
def monitors (x : Nat) : Nat := if x < 16 then 9 else 4

/-- Thresholds. -/
def State.fbCrit (s : State) : Nat := s.rf Reg.CLK_FB_THRESH 7 0
def State.fbWarn (s : State) : Nat := s.rf Reg.CLK_FB_THRESH 15 8
def State.fbRaise (s : State) : Nat := s.rf Reg.CLK_FB_THRESH 23 16

/-- A monitor of the node reads below FB_CRIT: forced stretch applies to it (R221). -/
def State.isForced (s : State) (x : Nat) : Bool := (List.range (monitors x)).any fun m => decide (s.marginAt x m < s.fbCrit)

/-- Forced stretch applies to some node (CS_FORCED). -/
def State.anyForced (s : State) : Bool := nodes.any fun x => s.inGraph x && s.isForced x

/-- What makes a node stretch its next cycle: its own detectors or monitors (true), or a neighbour's count (R219).
While the boundary waits for equal counts, forced stretch does not count (R221). -/
def ownCause (s : State) (waiting : Bool) (x : Nat) : Bool :=
  s.clk.droop.contains x || (!waiting && s.isForced x && !s.clk.now.contains x)

def byNeighbour (s : State) (x : Nat) : Bool :=
  nodes.any fun y => adjacent x y && s.inGraph y && decide (s.cnt x 0 < s.cnt y 1)

/-- Occupancy of the sluices from x to y when y reads in its cycle r = c − 2 (R216). -/
def occupancy (s : State) (x y : Nat) : Nat :=
  -- a cycle c − k ends at − k + n nominal periods, up to what both share
  let stop := s.cnt y 2 + 3
  let w := (List.range 5).find? fun k => decide (5 - k + s.cnt x k ≤ stop)
  match w with
  | some k => 8 - k
  | none => 3

/-- SM_MIN and SM_MAX take a sample (R232). -/
def sluiceNote (o : Nat) (s : State) : State :=
  let s := s.setRf Reg.CLK_SLUICE_MON 7 4 (max o (s.rf Reg.CLK_SLUICE_MON 7 4))
  s.setRf Reg.CLK_SLUICE_MON 3 0 (min o (s.rf Reg.CLK_SLUICE_MON 3 0))

/-- The node across a port of a tile: the polder over a seam, or the grid side over an edge link (R215, R217). -/
def acrossNode (t dir : Nat) : Option Nat :=
  let r := t / 48
  let c := t % 48
  let p := polderOf t
  match dir with
  | 0 => if r = 0 then some 16 else if r % 12 = 0 then some (p - 4) else none
  | 1 => if c = 47 then some 17 else if c % 12 = 11 then some (p + 1) else none
  | 2 => if r = 47 then some 18 else if r % 12 = 11 then some (p + 4) else none
  | _ => if c = 0 then some 19 else if c % 12 = 0 then some (p - 1) else none

/-- A slip: counted, captured and logged; the program stops at its next boundary as for any fatal record (R230). -/
def slip (kind t dir o : Nat) (s : State) : State :=
  let s := (s.setBits Reg.CLK_STATUS 8).bump Reg.CLK_SLIP_COUNT 1
  let s := if s.slipHeld then s
    else { s.setReg Reg.CLK_SLIP_INFO (wput (wput (wput (wput 0 27 16 t) 15 12 dir) 11 8 o) 1 0 kind) with slipHeld := true }
  s.logStop Ev.SLUICE_SLIP (Src.tile t) (leBytes kind 1 ++ leBytes dir 1 ++ leBytes o 2 ++ leBytes s.cycle 4 ++ leBytes s.spanNo 4) s.running

/-- A sluice whose occupancy has drifted is sampled: one slip below 2 or above 10, until it is calibrated (R216, R230). -/
def driftSample (key : Nat) (d : Int) (s : State) : State :=
  let kind := key / 4 / 2304
  let t := key / 4 % 2304
  match acrossNode t (key % 4) with
  | none => s
  | some y =>
    let x := polderOf t
    if s.inGraph x && s.inGraph y then
      let o := min 15 (((if kind = 3 then occupancy s x y else occupancy s y x : Nat) : Int) + d).toNat
      let s := sluiceNote o s
      if (o < 2 ∨ 10 < o) ∧ ¬ s.clk.slipped.contains key then
        slip (min kind 2) t (key % 4) o { s with clk := { s.clk with slipped := key :: s.clk.slipped } }
      else s
    else s

/-- Every sluice and crossing queue is set to its offset again: before a program is admitted or resumed after a slip (R230). -/
def recalibrate (s : State) : State :=
  if s.clk.slipped.isEmpty then s else { s with clk := { s.clk with drift := [], slipped := [] } }

/-- A polder leaves SHUT: its sluices and crossing queues, on both sides of its seams, are calibrated (R227). -/
def calibratePolder (k : Nat) (s : State) : State :=
  let mine (key : Nat) : Bool := polderOf (key / 4 % 2304) == k || acrossNode (key / 4 % 2304) (key % 4) == some k
  { s with clk := { s.clk with drift := s.clk.drift.filter (fun e => !mine e.1), slipped := s.clk.slipped.filter fun n => !mine n } }

/-- The polders take new states (R227, R232). -/
def polderStates (w : Word) (s : State) : State :=
  ((List.range 16).foldl (fun s k => if s.polder k = 2 ∧ wfld w (2 * k + 1) (2 * k) ≠ 2 then calibratePolder k s else s) s).setReg
    Reg.CLK_POLDER_STATE w

/-- The samples of a cycle. -/
def sluiceSample (s : State) : State :=
  let s := if s.clk.hist.isEmpty then s
    else
      nodes.foldl (fun s x => nodes.foldl (fun s y =>
        if adjacent x y && s.inGraph x && s.inGraph y then sluiceNote (occupancy s x y) s else s) s) s
  s.clk.drift.foldl (fun s e => driftSample e.1 e.2 s) s

/-- The counts at the end of the next cycle (R219). -/
def stretchTick (waiting : Bool) (s : State) : State :=
  let own := nodes.filter fun x => s.inGraph x && ownCause s waiting x
  let next := nodes.filter fun x => s.inGraph x && (ownCause s waiting x || byNeighbour s x)
  let forced := s.clk.forced || (!waiting && own.any fun x => s.isForced x)
  let hist : Tbl (List Nat) :=
    if s.clk.hist.isEmpty && next.isEmpty then []
    else nodes.map fun x =>
      let h := tget [] s.clk.hist x
      (x, ((h.headD 0 + b2n (next.contains x)) :: h).take 6)
  let origin := own.foldl (fun m x => m ||| 2 ^ x) s.clk.origin
  sluiceSample { s with clk := { s.clk with hist := hist, now := next, droop := [], origin := origin, forced := forced } }

/-- All counts are equal and no stretch is decided (R222): with equal counts no neighbour's count decides one. -/
def countsEqual (waiting : Bool) (s : State) : Bool :=
  let g := nodes.filter s.inGraph
  let top := g.foldl (fun m x => max m (s.cnt x 0)) 0
  g.all fun x => s.cnt x 0 == top && !ownCause s waiting x

/-- The common count of the span ends: summed, written and logged (R222, R233). -/
def stretchBoundary (s : State) : State :=
  let g := nodes.filter s.inGraph
  let n := g.foldl (fun m x => max m (s.cnt x 0)) 0
  let o := s.clk.origin
  let s := (s.addPair Reg.CLK_STRETCH_LO n).setReg Reg.CLK_STRETCH_SPAN (BitVec.ofNat 32 n)
  let s := s.setReg Reg.CLK_STRETCH_ORIGIN (BitVec.ofNat 32 o)
  let s := if n = 0 then s
    else s.log1 Ev.STRETCH (Src.node ((nodes.find? fun k => bitN o k).getD 0))
      (leBytes n 4 ++ leBytes s.spanNo 4 ++ leBytes o 3 ++ leBytes (b2n s.clk.forced) 1)
  { s with clk := { s.clk with hist := [], now := [], droop := [], origin := 0, forced := false } }

/-- DROOP_DETECT (R219). -/
def droopDetect (x : Nat) (s : State) : State :=
  if s.inGraph x then { s with clk := { s.clk with droop := if s.clk.droop.contains x then s.clk.droop else x :: s.clk.droop } } else s

def execDroopDetect (x : NodeNo) (s : State) : Res := .next (droopDetect x.val s)

/-! ### Operating points (R224, R225) -/

/-- The target: the slowest of the four requests; CS_PENDING, and a lock for another target is lost (R225). -/
def retarget (s : State) : State :=
  let t := max (max (s.rf Reg.CLK_OPREQ 3 0) (s.rf Reg.CLK_OPREQ 7 4)) (max (s.rf Reg.CLK_OPREQ 11 8) (s.rf Reg.CLK_OPREQ 15 12))
  let same := s.rf Reg.CLK_STATUS 27 24 = t
  let s := if same then s else (s.setRf Reg.CLK_STATUS 27 24 t).setRf Reg.CLK_STATUS 22 22 0
  let pend := t ≠ s.rf Reg.CLK_STATUS 31 28
  let s := s.setRf Reg.CLK_STATUS 23 23 (if pend then 1 else 0)
  if pend then s else s.setRf Reg.CLK_STATUS 22 22 0

/-- One request changes (R224): field [lo+3:lo] of CLK_OPREQ. -/
def setRequest (lo v : Nat) (s : State) : State := retarget (s.setRf Reg.CLK_OPREQ (lo + 3) lo v)

/-- The deciding source: the first, in the order host, freeboard, thermal, power cap, that asks for the point (R224). -/
def decider (s : State) (op : Nat) : Nat :=
  ((List.range 4).find? fun k => s.rf Reg.CLK_OPREQ (4 * k + 3) (4 * k) == op).getD 0

/-- The switch to the other PLL (R225); `span` is the number of the span that starts at the new point. -/
def opSwitch (span : Nat) (s : State) : State :=
  let old := s.rf Reg.CLK_STATUS 31 28
  let new := s.rf Reg.CLK_STATUS 27 24
  let s := (s.setRf Reg.CLK_STATUS 31 28 new).setRf Reg.CLK_STATUS 21 21 (1 - s.rf Reg.CLK_STATUS 21 21)
  let s := (s.setRf Reg.CLK_STATUS 23 23 0).setRf Reg.CLK_STATUS 22 22 0
  let s := ((s.setBits Reg.CLK_STATUS 1).bump Reg.CLK_OP_COUNT 1).pldmEvent 71 (BitVec.ofNat 32 new)
  s.log1 Ev.OP_CHANGE (Src.node 0)
    (leBytes old 1 ++ leBytes new 1 ++ leBytes (decider s new) 2 ++ leBytes span 4 ++ leBytes s.clk.lockUs 4)

/-- At a boundary: the switch, if the PLL is locked to the target. -/
def opBoundary (span : Nat) (s : State) : State := if s.rf Reg.CLK_STATUS 22 22 = 1 then opSwitch span s else s

/-- A program has left the grid: a switch that waited for a boundary follows at once (R225). -/
def opIdle (s : State) : State := if s.running.isSome then s else opBoundary 0 s

/-- PLL_LOCK_DONE: the idle PLL is locked to the target; with no program running the switch follows at once. -/
def pllLock (us : Nat) (s : State) : State :=
  if s.rf Reg.CLK_STATUS 23 23 = 1 ∧ s.rf Reg.CLK_STATUS 22 22 = 0 then
    let s := { (s.setRf Reg.CLK_STATUS 22 22 1) with clk := { s.clk with lockUs := us } }
    if s.running.isSome then s else opSwitch 0 s
  else s

def execPllLockDone (us : BitVec 32) (s : State) : Res := .next (pllLock us.toNat s)

/-! ### Freeboard (R223) -/

/-- The freeboard request: the slower of its value and the current point plus one, never slower than OP8. -/
def fbSlower (s : State) : State := setRequest 4 (max (s.rf Reg.CLK_OPREQ 7 4) (min 8 (s.rf Reg.CLK_STATUS 31 28 + 1))) s

/-- FREEBOARD_LOW. -/
def fbLog (x m v crit : Nat) (s : State) : State :=
  s.log1 Ev.FREEBOARD_LOW (Src.node x)
    (leBytes m 1 ++ leBytes v 1 ++ leBytes s.fbWarn 1 ++ leBytes crit 1 ++ leBytes s.cycle 4 ++ leBytes s.spanNo 4)

/-- A margin is read; FM_MIN follows it. -/
def setMargin (x m v : Nat) (s : State) : State :=
  { s with clk := { s.clk with margin := tset 255 s.clk.margin (x * 9 + m) v,
                               fmMin := tset 255 s.clk.fmMin x (min v (tget 255 s.clk.fmMin x)) } }

/-- What a monitor's reading does against FB_WARN, then FB_CRIT: an armed crossing is made below the threshold, and is
armed again from the threshold on. -/
def fbRead (x m : Nat) (s : State) : State :=
  let k := x * 9 + m
  let v := s.marginAt x m
  let s := if s.fbWarn ≤ v then { s with clk := { s.clk with warnOff := s.clk.warnOff.filter (· != k) } }
    else if s.clk.warnOff.contains k then s
    else
      let s := fbLog x m v 0 ((s.setBits Reg.CLK_STATUS 2).bump Reg.CLK_FBLOW_COUNT 1)
      fbSlower { s with clk := { s.clk with warnOff := k :: s.clk.warnOff } }
  if s.fbCrit ≤ v then { s with clk := { s.clk with critOff := s.clk.critOff.filter (· != k) } }
  else if s.clk.critOff.contains k then s
  else
    let s := fbLog x m v 1 s
    { s with clk := { s.clk with critOff := k :: s.clk.critOff } }

/-- MT_OFF: the task neither runs nor forces a window (R422). -/
def State.taskOff (s : State) (k : Nat) : Bool := bitN (s.reg Reg.RAS_MAINT_CTRL).toNat k

/-- A task runs in the window that is open: it has not completed a pass in it (log entry 162). -/
def inWindow (s : State) (k : Nat) : Bool := decide (0 < s.ras.win) && !s.taskOff k && !s.ras.ran.contains k && k != 4

/-- FREEBOARD_CROSSING: a monitor reads a lower margin. While task 3 calibrates, the monitors hold their last reading (R417). -/
def fbCross (x m v : Nat) (s : State) : State :=
  if inWindow s 3 then s else if m < monitors x ∧ v < s.marginAt x m then fbRead x m (setMargin x m v s) else s

def execFreeboardCrossing (x : NodeNo) (m : Fin 9) (v : Byte) (s : State) : Res := .next (fbCross x.val m.val v.toNat s)

/-- FREEBOARD_RISE: a monitor reads a higher margin. -/
def fbRise (x m v : Nat) (s : State) : State :=
  if inWindow s 3 then s else if m < monitors x ∧ s.marginAt x m < v then fbRead x m (setMargin x m v s) else s

def execFreeboardRise (x : NodeNo) (m : Fin 9) (v : Byte) (s : State) : Res := .next (fbRise x.val m.val v.toNat s)

/-- Every monitor is read against thresholds that have changed. -/
def fbReadAll (s : State) : State :=
  nodes.foldl (fun s x => (List.range (monitors x)).foldl (fun s m => fbRead x m s) s) s

/-- FREEBOARD_RAISE: one operating point faster, but not faster than OS_OP. With the calibration defaults the request
is held (R379). -/
def fbRaiseOp (s : State) : State :=
  if s.rf Reg.CLK_OPSEL 8 8 = 1 ∧ s.rf Reg.BOOT_STATUS 24 24 = 0 ∧ (nodes.all fun x => (List.range (monitors x)).all fun m => decide (s.fbRaise ≤ s.marginAt x m)) ∧
      s.rf Reg.CLK_OPSEL 3 0 < s.rf Reg.CLK_OPREQ 7 4 then
    setRequest 4 (s.rf Reg.CLK_OPREQ 7 4 - 1) s
  else s

def execFreeboardRaise (s : State) : Res := .next (fbRaiseOp s)

/-- At a boundary at which a monitor still reads below FB_WARN, the request is applied again. -/
def fbBoundary (s : State) : State :=
  if nodes.any fun x => s.inGraph x && (List.range (monitors x)).any fun m => decide (s.marginAt x m < s.fbWarn) then fbSlower s else s

end Sys2Proof.Machine
end

