-- ==== Sys2Proof/Machine/Queue.lean ====
section
/-!
DEFINITION. The decoupling queues: descriptors and their checks (R148–R150), what a transfer does (R151–R156), deadlines
and fallbacks (R161–R163), halts (R164, R165), and the deposit buffer (R39).
-/
namespace Sys2Proof.Machine

/-! ### Descriptors -/

/-- The fields of 32 descriptor bytes (R148). -/
def descOf (raw : Bytes) : Desc :=
  let v := leNat raw
  { shlev := ⟨fld v 241 240 % 4, Nat.mod_lt _ (by decide)⟩, shoff := fld v 226 208, ver := BitVec.ofNat 32 (fld v 207 176),
    entry := fld v 171 160, tsa := fld v 145 128, va := fld v 111 64, deadline := fld v 55 32, len := fld v 25 16,
    wv := bitN v 15, tag := ⟨fld v 13 8 % 64, Nat.mod_lt _ (by decide)⟩, fb := BitVec.ofNat 2 (fld v 7 6),
    fmt := BitVec.ofNat 4 (fld v 5 2), op := BitVec.ofNat 2 (fld v 1 0), raw := raw }

/-- A reserved bit of a descriptor is 1. -/
def descReserved (raw : Bytes) : Bool :=
  let v := leNat raw
  fld v 255 242 != 0 || fld v 239 227 != 0 || fld v 175 172 != 0 || fld v 159 146 != 0 || fld v 127 112 != 0 ||
    fld v 63 56 != 0 || fld v 31 26 != 0 || bitN v 14

/-- The program on the grid runs in deterministic mode. -/
def State.deterministic (s : State) : Bool :=
  match s.running with
  | some k => !(s.slot k).relaxed
  | none => true

/-- A field of a descriptor is out of range (R150, third case). -/
def Desc.badRange (d : Desc) : Bool :=
  (if d.op = 2 then d.fmt != 0xA && d.fmt != 0x8 else d.fmt != 0) || d.deadline == 0 || d.len == 0 || 768 < d.len ||
    tsSize < d.tsa + 256 * d.len || d.tsa % 256 != 0 || d.va % 256 != 0

/-- OP or FB is reserved, or FB does not go with OP (R150, second case). -/
def Desc.badOp (d : Desc) : Bool :=
  d.op == 3 || d.fb == 3 || (d.fb == 1 && d.op != 0) || (d.fb == 2 && d.op != 2)

/-- The cause for which a pushed descriptor is refused, in the order of R150 (R164). -/
def refusal (s : State) (t q : Nat) (d : Desc) : Option Nat :=
  if 8 ≤ (s.qEnts t q).length then some 3
  else if d.badOp || d.badRange || descReserved d.raw || (d.fb != 0 && s.deterministic) ||
      (decide (6 ≤ q) && (tget ({} : Pulp) s.pulp t).active) then some 4
  else none

/-! ### Queue state -/

def State.setEnts (s : State) (t q : Nat) (l : List QEnt) : State :=
  { s with que := { s.que with q := tset [] s.que.q (t * 8 + q) l } }

/-- The entry of a queue with a number replaced. -/
def State.setEnt (s : State) (t q : Nat) (e : QEnt) : State :=
  s.setEnts t q ((s.qEnts t q).map fun x => if x.uid = e.uid then e else x)

def State.ent? (s : State) (t q uid : Nat) : Option QEnt := (s.qEnts t q).find? (·.uid == uid)

/-- Changes of the outstanding count of a tag (R156). -/
def State.tagUp (s : State) (t k : Nat) : State := s.setTag t k { s.tag t k with count := (s.tag t k).count + 1 }
def State.tagDown (s : State) (t k : Nat) : State := s.setTag t k { s.tag t k with count := (s.tag t k).count - 1 }

/-- First sheet of a descriptor that has not been released. -/
def QEnt.next (e : QEnt) : Nat := e.skip + e.released.length

/-- The entry moves sheets: it is no weight-version operation (R112). -/
def QEnt.moves (e : QEnt) : Bool :=
  match e.kind with
  | .xfer => true
  | .pulpOut _ => true
  | .pulpIn => true
  | _ => false

/-- Physical address of a released sheet. -/
def QEnt.pa (e : QEnt) (j : Nat) : Nat := e.released.getD (j - e.skip) 0

/-- The levee die of the stack that holds a physical address (R136). -/
def leveeOf (pa : Nat) : Fin 4 := Fin.ofNat 4 (stackOf pa / 3)

/-- Outputs of an engine whose queue Q7 has halted, with the sheets that were released, and the reads of its abandoned item (R165,
R209). -/
def QEnt.stopOut (q : Nat) (e : QEnt) : Option QEnt :=
  match e.kind with
  | .pulpIn => none
  | .pulpOut _ => if q ≠ 7 then some e else if e.next = 0 then none else some { e with d := { e.d with len := min e.d.len e.next } }
  | _ => some e

/-- A halt of Q6 or Q7 during a phase stops the tile's engine (R209). -/
def engineStop (t q : Nat) (s : State) : State :=
  let p := tget ({} : Pulp) s.pulp t
  if 6 ≤ q ∧ p.active ∧ ¬ p.stopped then
    let s := ([6, 7] : List Nat).foldl (fun s n => s.setEnts t n ((s.qEnts t n).filterMap (QEnt.stopOut q))) s
    { s with pulp := tset {} s.pulp t { p with stopped := true, setup := false, cache := [], item := none, awaiting := false, finished := true, doneAt := some s.cycle } }
  else s

/-- A queue halts (R164, R165): the first halt's cause, head entry and sheet are kept; each is logged and counted. -/
def queueHalt (t q cause tag sheet : Nat) (head : Option (Nat × Nat)) (s : State) : State :=
  let slot := s.running.getD 0
  let s := (s.setBits Reg.QUE_STATUS 4).bump Reg.QUE_HALT_COUNT 1
  let s := s.setReg Reg.QUE_LAST_HALT (wput (wput (wput (wput 0 31 28 slot) 27 25 cause) 24 22 q) 11 0 t)
  let s := s.log1 Ev.QUEUE_HALT (Src.tile t)
    (leBytes q 1 ++ leBytes cause 1 ++ leBytes tag 2 ++ leBytes sheet 4 ++ leBytes s.cycle 4 ++ leBytes s.spanNo 4)
  let first : Nat × Nat := match head with
    | some h => h
    | none => match (s.qEnts t q).find? QEnt.moves with
      | some e => (e.uid, e.next)
      | none => (0, 0)
  let s := if s.halted t q then s
    else { s with que := { s.que with halts := tput s.que.halts (t * 8 + q) ⟨cause, first.1, first.2⟩ } }
  (engineStop t q s).checkHalt t

/-- HAZARD of a refused push (R150, R475). -/
def State.pushHaz (s : State) (t q cause : Nat) : State :=
  s.hazard t (leBytes 0x0A 1 ++ leBytes 1 1 ++ leBytes q 1 ++ leBytes cause 1 ++ leBytes s.cycle 4)

/-- The queue accepts or refuses a descriptor read in a cycle (R149, R150, R165). -/
def queueAccept (t q issue : Nat) (raw : Bytes) (s : State) : State :=
  let d := descOf raw
  match refusal s t q d with
  | some cause => queueHalt t q cause d.tag.val 0 none (s.pushHaz t q cause)
  | none =>
    let e : QEnt := { uid := s.uid, kind := .xfer, d := d, dl := issue + d.deadline }
    ({ s with uid := s.uid + 1 }.setEnts t q (s.qEnts t q ++ [e])).tagUp t d.tag.val

/-- q.push: the descriptor is read in the issue cycle (R149). -/
def opQPush (u : Site) (q : QNo) (ra : GReg) (s : State) : State :=
  if s.on u then
    let a := s.rd u ra
    if tsOk a 32 32 then s.access (.read u.tile.val rkDesc 0 [(a.toNat, 32)] (.qDesc q s.cycle))
    else s.badOperand u slotX
  else s

def execQPush (u : Site) (q : QNo) (ra : GReg) (s : State) : Res := .next (opQPush u q ra s)

/-! ### Release (R151) -/

/-- Bytes from a device virtual address to the end of its page (R137). -/
def pageLeft (s : State) (k va : Nat) : Nat :=
  match (s.slot k).save with
  | some f =>
    let e1 := leNat (s.hbmB (f * 0x40000000 + tableOff + 8 * (va / 2 ^ 30 % 262144)) 8)
    if bitN e1 1 then 2 ^ 30 - va % 2 ^ 30 else toPageEnd va
  | none => toPageEnd va

def Desc.right (d : Desc) : Right := if d.op = 0 then .rd else if d.op = 1 then .wr else .acc

/-- The address a descriptor names: its VA, or its offset in a copy of its weight entry; none where no copy serves
it (R113); an offset past the copy is not refused (log entry 141). -/
def descBase (s : State) (k : Nat) (d : Desc) : Option Nat :=
  if d.wv then
    let e := s.wvEntry k d.entry
    ((if d.op = 0 then e.copyOf d.ver.toNat else e.writingCopy).map fun c => c.va + d.va)
  else some d.va

/-- Granules of a tile store read in the bank-cycles that are free (R39): the state, the granules read and those that
wait; granules in a closed bank are read as zeros (R129). -/
def freeRead (t : Nat) (gs : List Nat) (s : State) : State × List Nat × List Nat :=
  let x := splitFree (s.usedBanks t) (gs.filter fun G => !s.closed t (bankOf G))
  let s := x.1.foldl (fun s G => s.eccRead placeTs (t * 0x6000 + G) (Src.tile t) (bankOf G) (8 * G) false s.running) (offRead s t gs)
  (s.useBanks t (x.1.map bankOf), x.1, x.2)

/-- Bytes of a run from an address with those of the granules in a list as the tile store holds them. -/
def patchRun (s : State) (t a : Nat) (gs : List Nat) (old : Bytes) : Bytes :=
  old.zipIdx.map fun p => if gs.contains ((a + p.2) / 8) then mget s.mem.ts (t * tsSize + a + p.2) else p.1

/-- Sheet j of a write starts on its way to its levee die (R132, R151). -/
def sendSource (t q : Nat) (e : QEnt) (j : Nat) (s : State) : State :=
  let x := tget ([], 0) e.src j
  (sheetFlits { dest := t, edge := some (leveeOf (e.pa j)), kind := 2, src := t, qref := some (q, e.uid, j), since := 0, born := 0 } x.1 x.2).foldl
    (fun s f => vOffer t f s) s

/-- Source sheet j of a write is read as far as bank-cycles are free, and starts on its way when it is whole (R39,
R152). -/
def sourceRead (t q uid j : Nat) (s : State) : State :=
  match s.ent? t q uid with
  | none => s
  | some e =>
    match tfind e.srcLeft j with
    | none => s
    | some gs =>
      let r := freeRead t gs s
      let x := tget ([], 0) e.src j
      let e : QEnt := { e with src := tput e.src j (patchRun r.1 t (e.d.tsa + 256 * j) r.2.1 x.1, x.2),
                               srcLeft := if r.2.2.isEmpty then tdel e.srcLeft j else tput e.srcLeft j r.2.2 }
      let s := r.1.setEnt t q e
      if r.2.2.isEmpty then sendSource t q e j s else s

/-- The source sheets that are being read go on in the free bank-cycles of a cycle. -/
def tickSources (s : State) : State :=
  s.que.q.foldl (fun s x => x.2.foldl (fun s e =>
    e.srcLeft.foldl (fun s l => sourceRead (x.1 / 8) (x.1 % 8) e.uid l.1 s) s) s) s

/-- Sheet j of an entry is released (R151): the request of a read starts on its way, and a read may be held (R332); the
source of a write is sealed and read (R152); the output of a pulp engine starts on its way (R200). -/
def releaseSheet (t q uid k base pa j : Nat) (s : State) : State :=
  match s.ent? t q uid with
  | none => s
  | some e =>
    let e : QEnt := { e with released := e.released ++ [pa] }
    if e.d.op == 0 then
      let h := readHeld s k (base + 256 * j) e.d.wv e.d.ver.toNat
      vOffer t { dest := t, edge := some (leveeOf pa), kind := 2, src := t, addr := e.d.tsa + 256 * j, qref := some (q, uid, j), since := 0, born := 0 }
        (s.setEnt t q { e with held := if h then e.held ++ [j] else e.held })
    else if e.kind == .xfer then
      let a := e.d.tsa + 256 * j
      let x := exportSheet s t (a / 256)
      sourceRead t q uid j (x.1.setEnt t q { e with src := tput e.src j (List.replicate 256 0, x.2), srcLeft := tput e.srcLeft j (granules a 256) })
    else sendSource t q e j (s.setEnt t q e)

/-- The first entry of a queue with sheets still to release. -/
def toRelease (s : State) (t q : Nat) : Option QEnt :=
  (s.qEnts t q).find? fun e => e.moves && e.fell.isNone && decide (e.next < e.d.len)

/-- QUEUE_TRANSLATE: the next page of the first descriptor with sheets to release (R140, R151, R165). -/
def queueTranslate (t q : Nat) (s : State) : State :=
  if s.halted t q then s
  else
    match toRelease s t q with
    | none => s
    | some e =>
      let k := s.running.getD 0
      let j := e.next
      match descBase s k e.d with
      | none =>
        queueHalt t q 1 e.d.tag.val j (some (e.uid, j)) (wvFail (if e.d.op = 0 then 1 else 2) e.d.entry s)
      | some base =>
        let va := base + 256 * j
        let s := xlatWalk k va s
        match translate s k va e.d.right with
        | .fault kind => queueHalt t q 0 e.d.tag.val j (some (e.uid, j)) (xlatQueue s va kind q k t)
        | .pa pa =>
          let n := min (e.d.len - j) (pageLeft s k va / 256)
          (List.range n).foldl (fun s i => releaseSheet t q e.uid k base (pa + 256 * i) (j + i) s) s

/-! ### Completion (R152, R156) -/

/-- The sheets an entry waits for before it is complete. -/
def QEnt.wants (e : QEnt) : List Nat :=
  if e.fell.isSome ∧ e.d.op = 2 then rangeFrom e.skip e.released.length else rangeFrom e.skip (e.d.len - e.skip)

/-- An entry that is complete leaves its queue: its tag counts it no longer and records its fallback (R156, R161). -/
def entryCheck (t q uid : Nat) (s : State) : State :=
  match s.ent? t q uid with
  | none => s
  | some e =>
    if e.wants.all fun j => e.done.contains j then
      let s := s.setEnts t q ((s.qEnts t q).filter (·.uid != uid))
      let s := if e.missed then s.addPair Reg.QUE_MISS_CYC_LO (s.cycle - e.dl) else s
      let s := if e.kind = .xfer then s.tagDown t e.d.tag.val else s
      match e.fell with
      | some f => s.setTag t e.d.tag.val { s.tag t e.d.tag.val with kind := if e.d.op = 0 then 1 else 2, first := f }
      | none => s
    else s

/-- A sheet of an entry is written to the tile store or committed. -/
def sheetDone (t q uid j : Nat) (s : State) : State :=
  match s.ent? t q uid with
  | none => s
  | some e =>
    entryCheck t q uid (s.setEnt t q { e with done := if e.done.contains j then e.done else e.done ++ [j] })

/-- Descriptor d, in push order, of those of a queue that name a tag and read, or write, when it has released a sheet that
is not yet taken (R154). -/
def liveSheet (s : State) (t q tag d j : Nat) (rd : Bool) : Option QEnt :=
  (((s.qEnts t q).filter fun e => e.moves && e.d.tag.val == tag && (e.d.op == 0) == rd)[d]?).filter fun e =>
    decide (e.skip ≤ j ∧ j < e.next) && !e.taken.contains j && !e.done.contains j

/-! ### Arbitration (R158) -/

/-- A sheet of an entry waits at its pseudo-channel controller. -/
def QEnt.waitsAt (e : QEnt) (c j : Nat) : Bool :=
  e.moves && decide (e.skip ≤ j ∧ j < e.next) && !e.taken.contains j && !e.done.contains j && !e.held.contains j &&
    (e.d.op != 0 || e.fell.isNone) && (match tfind e.atCtl j with
      | some a => decide (a ≤ c)
      | none => false)

/-- The order of service: D, then tile id, queue and sheet index. -/
def edfBefore (a b : Nat × Nat × Nat × Nat) : Bool :=
  a.1 < b.1 || (a.1 == b.1 && (a.2.1 < b.2.1 || (a.2.1 == b.2.1 && (a.2.2.1 < b.2.2.1 || (a.2.2.1 == b.2.2.1 && a.2.2.2 < b.2.2.2)))))

/-- Global pseudo-channel of a physical address (R136). -/
def channelOf (pa : Nat) : Nat := pa / 256 % 384

/-- The sheets that wait at a controller, with their place in the order of service. -/
def waitingAt (s : State) (ch : Nat) : List (Nat × Nat × Nat × Nat) :=
  s.que.q.flatMap fun x => x.2.flatMap fun e =>
    ((rangeFrom e.skip e.released.length).filter fun j => e.waitsAt s.cycle j && channelOf (e.pa j) == ch).map fun j => (e.dl, x.1 / 8, x.1 % 8, j)

/-- A sheet waits at its controller and is the first of those that wait there (R158). -/
def servedNext (s : State) (t q : Nat) (e : QEnt) (j : Nat) : Bool :=
  e.waitsAt s.cycle j && (waitingAt s (channelOf (e.pa j))).all fun k => !edfBefore k (e.dl, t, q, j)

/-- A controller serves a queue sheet. -/
def State.slotTaken (s : State) (pa : Nat) : State :=
  { s with que := { s.que with slots := tset 15 s.que.slots (channelOf pa) (min 15 (tget 15 s.que.slots (channelOf pa) + 1)) } }

/-- Levee-local traffic may take a slot of a controller: no queue sheet waits there, or 15 were served since its last one
(R158). -/
def localSlot (s : State) (pa : Nat) : Bool :=
  (waitingAt s (channelOf pa)).isEmpty || tget 15 s.que.slots (channelOf pa) == 15

/-- Levee-local traffic takes a slot of a controller. -/
def State.takeLocal (s : State) (pa : Nat) : State :=
  { s with que := { s.que with slots := tset 15 s.que.slots (channelOf pa) 0 } }

/-- Released sheets of an entry from a sheet on are withdrawn. -/
def QEnt.cutAt (e : QEnt) (j : Nat) : QEnt :=
  let lt {α : Type} (l : Tbl α) : Tbl α := l.filter fun x => decide (x.1 < j)
  { e with released := e.released.take (j - e.skip), taken := e.taken.filter (· < j), held := e.held.filter (· < j),
           shOut := e.shOut.filter (· < j),
           src := lt e.src, srcLeft := lt e.srcLeft, atCtl := lt e.atCtl }

/-- The first sheet of an entry that is not written or committed. -/
def QEnt.firstOpen (e : QEnt) : Nat :=
  ((rangeFrom e.skip (e.d.len - e.skip)).find? fun j => !e.done.contains j).getD e.d.len

/-- Read data met a closed bank: the sheet and the later ones of its descriptor are dropped, wherever they are on their way,
with what later descriptors of the queue had under way, and the queue halts (R129, R165). -/
def closedHalt (t q uid j bank a : Nat) (s : State) : State :=
  match s.ent? t q uid with
  | none => s
  | some e =>
    let s := offWrite s t bank 1 q a
    let es := s.qEnts t q
    let later := ((es.dropWhile (·.uid != uid)).drop 1).map fun x => if x.moves then x.cutAt x.firstOpen else x
    let s := s.setEnts t q ((es.takeWhile (·.uid != uid)) ++ e.cutAt j :: later)
    let s := s.setDep t ((s.dep t).filter fun w => !(w.writer == 1 && w.q == q && ((w.uid == uid && j ≤ w.sheet) ||
      later.any fun x => x.uid == w.uid && x.next ≤ w.sheet)))
    queueHalt t q 2 e.d.tag.val j (some (uid, j)) s

/-- QUEUE_SHEET_RETURN: the controller serves a sheet of a read: its data leaves over the levee crossing, 24 cycles, and waits at
the port of its edge link for its turn on VC2 (R151, R158, R183). -/
def sheetReturn (t q tag d j : Nat) (s : State) : State :=
  match liveSheet s t q tag d j true with
  | none => s
  | some e =>
    let pa := e.pa j
    let k := s.running.getD 0
    let va := (descBase s k e.d).getD 0 + 256 * j
    let l := leveeOf pa
    let r := edgeTile t l
    if !servedNext s t q e j || readHeld s k va e.d.wv e.d.ver.toNat then s
    else
      let s := (hbmRead pa false s).slotTaken pa
      let f : VFlit := { dest := t, kind := 2, src := t, addr := e.d.tsa + 256 * j, qref := some (q, e.uid, j), since := s.cycle + 24, born := s.cycle + 24 }
      (s.setInb r (edgePort l) (s.inb r (edgePort l) ++ sheetFlits f (s.hbmSheet pa) (s.hbmCheck pa))).setEnt t q { e with taken := e.taken ++ [j] }

def execQueueSheetReturn (t : TileId) (q : QNo) (tag : TagNo) (sheet : SheetNo) (s : State) : Res :=
  .next (sheetReturn t.val q.val tag.val sheet.desc.val sheet.sheet.val s)

/-- HELD_READ_RELEASE: the condition that held a sheet has cleared (R332). -/
def heldRelease (t q tag d j : Nat) (s : State) : State :=
  match liveSheet s t q tag d j true with
  | none => s
  | some e =>
    let k := s.running.getD 0
    if readHeld s k ((descBase s k e.d).getD 0 + 256 * j) e.d.wv e.d.ver.toNat then s
    else s.setEnt t q { e with held := e.held.filter (· != j) }

def execHeldReadRelease (t : TileId) (q : QNo) (tag : TagNo) (sheet : SheetNo) (s : State) : Res :=
  .next (heldRelease t.val q.val tag.val sheet.desc.val sheet.sheet.val s)

/-! ### Arrival at a tile and at a levee die -/

/-- The second half of a sheet completes the entry that its first made; the sheet may be written from a cycle on. -/
def depJoin (of : Nat × Nat × Nat) (addr : Nat) (data : Bytes) (chk since : Nat) : List DepWrite → List DepWrite
  | [] => []
  | w :: r =>
    if w.size = 256 ∧ w.data.length = 128 ∧ w.addr + 128 = addr ∧ (w.q, w.uid, w.sheet) = of then
      { w with data := w.data ++ data, chk := w.chk.map fun c => BitVec.ofNat 32 (c.toNat % 65536 + chk * 65536), since := since } :: r
    else w :: depJoin of addr data chk since r

/-- Unscheduled data arrives: it is accepted into the deposit buffer (R39, R128), or dropped, as a whole, where a bank that it
has a granule in is closed, which halts the queue of queue data (R129). A sheet is accepted or dropped with its first half
(log entry 172). -/
def depTake (t : Nat) (w : DepWrite) (s : State) : State :=
  match closedBank s t (granules w.addr (max w.size w.data.length)) s.cycle with
  | some b => if w.writer = 1 then closedHalt t w.q w.uid w.sheet b w.addr s else offWrite s t b w.writer w.q w.addr
  | none => s.setDep t (s.dep t ++ [w])

/-- A VC2 flit with data reaches the deposit buffer of its tile, where it may be written 2 cycles later (R39, R182, R183): the
first flit of a sheet keeps room for the second, which finds no entry where the first was dropped. -/
def depEnter (t writer : Nat) (f : VFlit) (s : State) : State :=
  let x := f.qref.getD (0, 0, 0)
  if f.data.length ≠ 128 then
    depTake t { addr := f.addr, data := f.data, writer := writer, q := 0, uid := 0, sheet := 0, chk := none, part := true, since := s.cycle + 2 } s
  else if f.last then s.setDep t (depJoin x f.addr f.data f.chk (s.cycle + 2) (s.dep t))
  else
    depTake t { addr := f.addr, data := f.data, writer := writer, q := x.1, uid := x.2.1, sheet := x.2.2,
                chk := some (BitVec.ofNat 32 f.chk), part := false, since := s.cycle + 2, size := 256 } s

/-- A half of a sheet that an engine reads reaches it; with the second the sheet is there 2 cycles later, as data is in the tile
store (R183, R190). -/
def pulpData (t q j : Nat) (e : QEnt) (f : VFlit) (s : State) : State :=
  if f.last then
    let p := tget ({} : Pulp) s.pulp t
    sheetDone t q e.uid j { s with pulp := tset {} s.pulp t { p with cache := tput p.cache (e.d.va / 256) (s.cycle + 2, (tget ([], 0) e.src j).1 ++ f.data) } }
  else s.setEnt t q { e with src := tput e.src j (f.data, 0) }

/-- The flit brings data to an engine, which has a place for every sheet it reads. -/
def State.forEngine (s : State) (t : Nat) (f : VFlit) : Bool :=
  match f.qref with
  | some (q, uid, _) => (s.ent? t q uid).any fun e => e.kind == .pulpIn
  | none => false

/-- Queue data reaches its tile: data that a fallback cancelled or a halt withdrew is discarded (R161, R162, R165). -/
def queueData (t : Nat) (f : VFlit) (s : State) : State :=
  match f.qref with
  | none => s
  | some (q, uid, j) =>
    match s.ent? t q uid with
    | none => s
    | some e =>
      if e.fell.isSome || !e.taken.contains j then s
      else if e.kind = .pulpIn then pulpData t q j e f s
      else depEnter t 1 f s

/-- A queue request, or the second flit of a sheet of a write, enters the levee crossing and reaches its controller: over the
4-cycle command path or the 24-cycle data path (R133, R151). -/
def crossingIn (f : VFlit) (s : State) : State :=
  match f.qref with
  | none => s
  | some (q, uid, j) =>
    match s.ent? f.src q uid with
    | none => s
    | some e =>
      if f.last && decide (e.skip ≤ j ∧ j < e.next) then
        s.setEnt f.src q { e with atCtl := tput e.atCtl j (s.cycle + if e.d.op == 0 then 4 else 24) }
      else s

/-! ### Writing (R39, R126) -/

/-- A whole sheet is in the tile store: its check is verified and kept (R126, R406). -/
def sheetSealed (t a : Nat) (data : Bytes) (chk : Word) (s : State) : State :=
  let s := s.setSheet t (a / 256) { crc := chk }
  if crc32c data = chk then s else s.checkFail (Src.tile t) placeTs 0 a s.running

/-- Granules of a deposit-buffer entry are written (R39). -/
def depPut (t : Nat) (w : DepWrite) (gs : List Nat) (s : State) : State :=
  let s := gs.foldl (fun s G => (s.eccRead placeDep (t * 0x6000 + G) (Src.tile t) 0 (8 * G) false s.running).eccWrite placeDep (t * 0x6000 + G)) s
  let s := gs.foldl (fun s G => s.eccWrite placeTs (t * 0x6000 + G)) s
  (putRun s t ((granules w.addr w.data.length).filter fun G => !gs.contains G) w.addr w.data).useBanks t (gs.map bankOf)

/-- Every granule of an entry is written: a sheet is sealed, bytes within one leave it OPEN (R126). -/
def depSeal (t : Nat) (w : DepWrite) (s : State) : State :=
  match w.part, w.chk with
  | false, some c => sheetSealed t w.addr w.data c s
  | _, _ => sealRun s t prNone w.addr w.data (w.data.length + 1)

/-- Output of a pulp engine for its own tile enters the deposit buffer as it finds room (R200). -/
def depRefill (t : Nat) (s : State) : Nat → State
  | 0 => s
  | fuel + 1 =>
    let p := tget ({} : Pulp) s.pulp t
    match p.outq with
    | [] => s
    | w :: r =>
      if s.depRoom t w.data.length then
        let s : State := { s with pulp := tset {} s.pulp t { p with outq := r } }
        depRefill t (depTake t { w with since := s.cycle } s) fuel
      else s

/-- The oldest entry leaves the deposit buffer. -/
def depPop (t : Nat) (s : State) : State := depRefill t (s.setDep t ((s.dep t).drop 1)) 8

/-- The granules of the oldest entry that are still to be written find free bank-cycles (R39). -/
def depGo (t : Nat) (w : DepWrite) (gs : List Nat) (s : State) : State :=
  let x := splitFree (s.usedBanks t) gs
  let s := depPut t w x.1 s
  if x.2.isEmpty then
    let s := depSeal t w (depPop t s)
    if w.writer = 1 then sheetDone t w.q w.uid w.sheet s else s
  else s.setDep t ({ w with left := some x.2 } :: (s.dep t).drop 1)

/-- DEPOSIT_WRITE: the oldest entry of the deposit buffer is written in the bank-cycles that are free (R39), also in a bank
that was closed after the entry was accepted (R129). -/
def depositWrite (t : Nat) (s : State) : State :=
  match s.dep t with
  | [] => s
  | w :: _ =>
    if s.cycle < w.since ∨ w.data.length < w.size then s
    else
      depGo t w (w.left.getD (granules w.addr w.data.length)) s

def execDepositWrite (t : TileId) (s : State) : Res := .next (depositWrite t.val s)

/-! ### Commits (R152, R155) -/

/-- Two BF16 elements added, rounded once; the sign of an exact zero sum, but for that of two +0, is open (R155; log entry
113). -/
def bf16Sum (old new : Nat) : Nat :=
  let r := (fAdd bf16 old new).1
  if r % 0x8000 = 0 ∧ ¬ (old = 0 ∧ new = 0) then (if Config.zeroSumNegative old new then 0x8000 else 0) else r

/-- One element of an accumulate-write added: FP32 by R56, BF16 rounded once (R155). -/
def accElem (fmt : Nat) (old new : Nat) : Nat := if fmt = 0xA then (accumulate (some old) (unpack fp32 new)).1 else bf16Sum old new

/-- A sheet added element by element into a sheet of HBM (R155). -/
def accSheet (fmt : Nat) (old new : Bytes) : Bytes :=
  packElems fmt (((unpackElems fmt old).zip (unpackElems fmt new)).map fun p => accElem fmt p.1 p.2)

/-- The check of a contribution before it is added (R406): place 0x0B. -/
def adderVerify (pa : Nat) (data : Bytes) (chk : Word) (s : State) : State :=
  if crc32c data = chk then s
  else s.checkFail (Src.levee (stackOf pa / 3)) 0x0B (stackOf pa) pa (ownerOfPa s pa)

/-- An accumulate-write into a sheet of HBM: old and new are verified, the sum gets a check of its own (R155, R404). -/
def accCommit (pa fmt : Nat) (data : Bytes) (chk : Word) (s : State) : State :=
  let s := adderVerify pa data chk (hbmVerify pa (hbmRead pa false s))
  let n := accSheet fmt (s.hbmSheet pa) data
  s.hbmPut pa n (crc32c n)

/-- The output of a pulp engine in one sheet of HBM: bytes from an offset on, over what the sheet holds (R200). -/
def mergeSheet (old : Bytes) (off : Nat) (b : Bytes) : Bytes := old.take off ++ b ++ old.drop (off + b.length)

/-- One sheet of a write is committed (R152, R155, R200). -/
def commitSheet (e : QEnt) (j : Nat) (s : State) : State :=
  let pa := e.pa j
  let x := tget ([], 0) e.src j
  match e.kind with
  | .pulpOut off =>
    let s := hbmVerify pa (hbmRead pa false s)
    let n := mergeSheet (s.hbmSheet pa) (if j = 0 then off else 0) x.1
    s.hbmPut pa n (crc32c n)
  | _ => if e.d.op = 1 then s.hbmPut pa x.1 x.2 else accCommit pa e.d.fmt.toNat x.1 x.2 s

/-- HBM_SHEET_COMMIT: the controller serves one sheet of a write (R152, R158). -/
def sheetCommit (t q tag d j : Nat) (s : State) : State :=
  match liveSheet s t q tag d j false with
  | none => s
  | some e =>
    if servedNext s t q e j then
      let s := (commitSheet e j s).slotTaken (e.pa j)
      sheetDone t q e.uid j (reamCommit (s.running.getD 0) ((descBase s (s.running.getD 0) e.d).getD 0 + 256 * j) s)
    else s

def execHbmSheetCommit (t : TileId) (q : QNo) (tag : TagNo) (sheet : SheetNo) (s : State) : Res :=
  .next (sheetCommit t.val q.val tag.val sheet.desc.val sheet.sheet.val s)

/-! ### Deadlines (R161–R163) -/

/-- A fallback is taken: logged and counted (R161). -/
def noteFallback (t q first : Nat) (e : QEnt) (s : State) : State :=
  let s := (s.setBits Reg.QUE_STATUS 2).bump Reg.QUE_FALLBACK_COUNT 1
  s.log1 Ev.FALLBACK_TAKEN (Src.tile t)
    (leBytes q 1 ++ leBytes e.d.fb.toNat 1 ++ leBytes e.d.tag.val 2 ++ leBytes first 4 ++ leBytes e.dl 4 ++ leBytes s.spanNo 4)

/-- The shadow fallback: sheets not yet written are cancelled, and sheet k of them is asked for as by an rv.read issued in this
cycle (R133, R161, R162). -/
def takeShadow (t q : Nat) (e : QEnt) (s : State) : State :=
  let cut := (rangeFrom e.skip (e.d.len - e.skip)).filter fun j => !e.done.contains j
  let first := cut.headD e.d.len
  let s := noteFallback t q first e s
  let s := s.setDep t ((s.dep t).filter fun w => !(w.writer == 1 && w.q == q && w.uid == e.uid))
  let s := s.setEnt t q { e with missed := true, fell := some first, taken := cut, held := [] }
  (cut.foldl (fun (p : Nat × State) j => (p.1 + 1, p.2.sch (p.2.cycle + 2 + 2 * p.1) (.shadow t q e.uid j))) (0, s)).2

/-- A halted queue keeps back a sheet: the sheet of the halt, a later one of its descriptor, or one of a later descriptor
(R165). -/
def haltKeeps (s : State) (t q uid j : Nat) : Bool :=
  match tfind s.que.halts (t * 8 + q) with
  | some h => decide (h.uid < uid) || (h.uid == uid && decide (h.sheet ≤ j))
  | none => false

/-- The request of a shadow sheet leaves on VC0 (R162); it waits while another flit leaves the local port, and until the
deposit buffer has room for the sheet (R39; log entry 166). -/
def shadowAsk (t q uid j : Nat) (s : State) : State :=
  match s.ent? t q uid with
  | none => s
  | some e =>
    if !e.taken.contains j || haltKeeps s t q uid j then s
    else if (s.mesh.flits.any fun f => f.at_ == t && f.inp == 0 && f.cyc == s.cycle) || !s.depRoom t 256 then
      s.sch (s.cycle + 1) (.shadow t q uid j)
    else
      (s.setEnt t q { e with shOut := e.shOut ++ [j] }).addFlit
        { at_ := t, cyc := s.cycle, inp := 0, unit := 9, edge := some e.d.shlev, dest := t, kind := 1, last := true,
          addr := e.d.tsa + 256 * j, off := 256 * (e.d.shoff + j), src := t, shadow := some (q, uid, j) }

/-- Half of a shadow sheet reaches the deposit buffer of its tile (R39, R162), unless a halt has withdrawn the sheet (R165). -/
def shadowHalf (t half : Nat) (of : Nat × Nat × Nat) (data : Bytes) (chk : Nat) (s : State) : State :=
  match s.ent? t of.1 of.2.1 with
  | none => s
  | some e =>
    let j := of.2.2
    let a := e.d.tsa + 256 * j
    if !e.taken.contains j then s
    else if half = 0 then
      depTake t { addr := a, data := data, writer := 1, q := of.1, uid := of.2.1, sheet := j, chk := some (BitVec.ofNat 32 chk),
                  part := false, since := s.cycle, size := 256 }
        (s.setEnt t of.1 { e with shOut := e.shOut.filter (· != j) })
    else s.setDep t (depJoin of (a + 128) data chk s.cycle (s.dep t))

/-- The first entry of a queue that has passed its deadline and was not reported. -/
def lateEntry (s : State) (t q : Nat) : Option QEnt :=
  (s.qEnts t q).find? fun e => e.moves && !e.missed && decide (e.dl ≤ s.cycle)

/-- DEADLINE_EXPIRY (R161). In a halted queue, whose sheets from the halt on are never released (R165), the miss is
reported and no fallback is taken (log entry 136). A defer whose sheets are all released withdraws none, and FIRST is then
the descriptor's length (log entry 171). -/
def deadlineExpiry (t q : Nat) (s : State) : State :=
  match lateEntry s t q with
  | none => s
  | some e =>
    let s := (s.setBits Reg.QUE_STATUS 1).bump Reg.QUE_MISS_COUNT 1
    let s := s.log1 Ev.DEADLINE_MISS (Src.tile t)
      (leBytes q 1 ++ leBytes e.d.op.toNat 1 ++ leBytes e.d.tag.val 1 ++ leBytes e.d.fb.toNat 1 ++ leBytes e.dl 4 ++
        leBytes s.spanNo 4)
    if s.halted t q then s.setEnt t q { e with missed := true }
    else if e.d.fb = 1 then takeShadow t q e s
    else if e.d.fb = 2 then
      let s := noteFallback t q e.next e s
      entryCheck t q e.uid (s.setEnt t q { e with missed := true, fell := some e.next })
    else s.setEnt t q { e with missed := true }

def execDeadlineExpiry (t : TileId) (q : QNo) (s : State) : Res := .next (deadlineExpiry t.val q.val s)

end Sys2Proof.Machine
end

