-- ==== Sys2Proof/Machine/Vc2.lean ====
section
/-!
DEFINITION. Unscheduled flits at a router: the grant of an output and credits (R178, R182), the ports of the levee crossings
(R158), and what a flit does at its destination (R199, R200).
-/
namespace Sys2Proof.Machine

/-! ### Where a flit goes -/

/-- The outputs a flit still wants at a router: those of a multicast flit, or the one of its route (R132, R180). -/
def vOuts (t : Nat) (f : VFlit) : List Nat :=
  match f.outs, f.edge with
  | some l, _ => l
  | none, some l => [edgePort l]
  | none, none => if f.kind = 7 then mcOuts t f else [routePort t f.dest]

/-- The head of an input buffer that is at the router, with the output it wants next. -/
def vHead (s : State) (t port : Nat) (vc3 : Bool) : Option (VFlit × Nat) :=
  match s.vb t port vc3 with
  | f :: _ => if f.since ≤ s.cycle then some (f, (vOuts t f).headD 0) else none
  | [] => none

/-! ### Grants and credits -/

/-- An input wants an output. -/
def vWants (s : State) (t port : Nat) (vc3 : Bool) (out : Nat) : Bool :=
  match vHead s t port vc3 with
  | some (_, o) => o == out
  | none => false

/-- A VC3 flit has waited MC_VC3_GAP cycles for an output (R178). -/
def vc3Waits (s : State) (t out : Nat) : Bool :=
  (List.range 5).any fun p => vWants s t p true out &&
    (match vHead s t p true with
     | some (f, _) => decide (s.rf Reg.MESH_CTRL 7 0 ≤ s.cycle - f.since)
     | none => false)

/-- Place of a flit of a queue sheet in the order of R158: D, tile, queue, sheet; a flit whose entry is gone goes first. -/
def flitKey (s : State) (f : VFlit) : Nat × Nat × Nat × Nat :=
  match f.qref with
  | some (q, uid, j) =>
    match s.ent? f.src q uid with
    | some e => (e.dl, f.src, q, j)
    | none => (0, 0, 0, 0)
  | none => (0, 0, 0, 0)

/-- The first in the order of R158 of what waits at a port of a levee crossing. -/
def edfFirst {α : Type} (key : α → Nat × Nat × Nat × Nat) : List α → Option α
  | [] => none
  | x :: l =>
    match edfFirst key l with
    | some y => if edfBefore (key y) (key x) then some y else some x
    | none => some x

/-- The inputs of a channel that want an output, from the round-robin pointer on. A head that finds no credit in the next
buffer contends as the others do (log entry 169). -/
def vInputs (s : State) (t out : Nat) (vc3 : Bool) : List Nat :=
  ((List.range 5).map fun i => (tget 0 s.mesh.rr (t * 8 + out) + i) % 5).filter fun p => vWants s t p vc3 out

/-- The input that an output grants: in round-robin order (R178), and of the queue sheets that go to a levee crossing the one
with the earliest deadline (R158). VC3 inputs take turns by the same pointer (log entry 169). -/
def vWinner (s : State) (t out : Nat) (vc3 : Bool) : Option Nat :=
  let l := vInputs s t out vc3
  if !vc3 && out != 0 && (neighbour t out).isNone then
    edfFirst (fun p => ((vHead s t p false).map fun h => flitKey s h.1).getD (0, 0, 0, 0)) l
  else l.head?

/-- A scheduled flit takes an output in this cycle: it has left by it, or stands at the router and is bound for it. -/
def scheduledOut (s : State) (t out : Nat) : Bool :=
  outputTaken t out s || s.mesh.flits.any fun f => f.at_ == t && decide (f.cyc ≤ s.cycle) && f.target == some out

/-- The output serves an input of a channel in this cycle (R178). -/
def vGranted (s : State) (t inp out : Nat) (vc3 : Bool) : Bool :=
  !scheduledOut s t out && tget 0 s.mesh.vused (t * 8 + out) != s.ticks + 1 && vWinner s t out vc3 == some inp &&
    (if vc3 then vc3Waits s t out || !((List.range 5).any fun p => vWants s t p false out) else !vc3Waits s t out)

/-- The next buffer holds a credit for the flit (R182, R199): a place in the input buffer of the next router, room in the
deposit buffer for the sheet that a flit begins, or a place in the inbox of the engine or among the sheets it reads. A levee crossing always has one
(log entry 170). -/
def vCredit (s : State) (t out : Nat) (f : VFlit) (vc3 : Bool) : Bool :=
  match neighbour t out with
  | some n => (s.vb n (opposite out) vc3).length < 8
  | none =>
    if out ≠ 0 || s.forEngine t f then true
    else if f.kind = 0 ∨ f.kind = 2 then
      if f.data.length ≠ 128 then s.depRoom t f.data.length else f.last || s.depRoom t 256
    else if f.kind = 4 ∨ f.kind = 5 then (tget ({} : Pulp) s.pulp t).inbox.length < 32
    else true

/-! ### Destinations -/

/-- The message a pulp flit carries, by the first byte of its data (R199). -/
def pulpMsg (f : VFlit) (src cyc : Nat) : PulpMsg :=
  let a (k : Nat) : Nat := f.args.getD k 0
  if f.kind = 4 then
    match a 0 with
    | 1 => .steal src cyc
    | 2 => .insert (a 1) (a 2) (a 3) src cyc
    | _ => .probe (a 1) (a 2) (a 3) src cyc
  else match a 0 with
    | 1 => .reply (a 1) (a 2) cyc
    | _ => .probed (a 1) (a 2) f.data cyc

/-- Group rank of a tile: r = 12a + b (R195). -/
def groupRank (t : Nat) : Nat := 12 * (t / 48 % 12) + t % 48 % 12

/-- The time of a VC2 packet whose last flit leaves the mesh for its tile or for its crossing, counted to the cycle 2 later in
which it is written (R183, R189; log entry 170). -/
def vTime (f : VFlit) (s : State) : State :=
  if f.last ∧ f.kind ≠ 6 ∧ f.kind ≠ 7 then
    s.setReg Reg.MESH_VC2_MAX (BitVec.ofNat 32 (max (s.rf Reg.MESH_VC2_MAX 15 0) (min 0xFFFF (s.cycle + 2 - f.born))))
  else s

/-- A flit at its destination: sheet data and queue data enter the deposit buffer, pulp messages the inbox of the engine;
management and multicast flits reach device firmware (R177, R187). -/
def vDeliver (t : Nat) (f : VFlit) (s : State) : State :=
  let s := vTime f s
  match f.kind with
  | 0 => depEnter t 3 f s
  | 2 => queueData t f s
  | 6 => s
  | 7 => s
  | _ =>
    let p := tget ({} : Pulp) s.pulp t
    { s with pulp := tset {} s.pulp t { p with inbox := p.inbox ++ [pulpMsg f (groupRank f.src) (s.cycle + 2)] } }

/-- A flit leaves a router by an output: to the next buffer, over a levee crossing, or to the tile. -/
def vLeave (t out : Nat) (vc3 : Bool) (f : VFlit) (s : State) : State :=
  match neighbour t out with
  | some n =>
    if s.seamShut t n then s.shutDrop t out 0
    else s.setVb n (opposite out) vc3 (s.vb n (opposite out) vc3 ++ [{ f with since := s.cycle + hopCycles t n }])
  | none => if out = 0 then vDeliver t f s else crossingIn f (vTime f s)

/-- The head flit of an input buffer is served by an output; it stays there while it wants others (R187). The pointer of the
output advances past the input (R178), on VC3 as on VC2 (log entry 169). -/
def vMove (t inp out : Nat) (vc3 : Bool) (f : VFlit) (s : State) : State :=
  let rest := (vOuts t f).drop 1
  let b := (s.vb t inp vc3).drop 1
  let s := s.setVb t inp vc3 (if rest.isEmpty then b else { f with outs := some rest } :: b)
  let s := { s with mesh := { s.mesh with vused := tset 0 s.mesh.vused (t * 8 + out) (s.ticks + 1),
                                          rr := tset 0 s.mesh.rr (t * 8 + out) ((inp + 1) % 5) } }
  vLeave t out vc3 (if f.kind = 7 then mcCopy f out else f) s

/-- A flit as received over a hop (R81, R175). -/
def VFlit.received (f : VFlit) : HopErr → VFlit
  | .uncorrectable a b => (f.flip a).flip b
  | _ => f

/-- VC2_FLIT_FORWARD (R178, R182): the code of the hop that brought the flit reports as it leaves (R175). -/
def vForward (t inp : Nat) (vc3 : Bool) (err : HopErr) (s : State) : State :=
  match vHead s t inp vc3 with
  | some (f, out) =>
    if vGranted s t inp out vc3 && vCredit s t out f vc3 then
      if inp = 0 then vMove t inp out vc3 f s
      else vMove t inp out vc3 (f.received err) (s.meshEcc t inp (2 + b2n vc3) f.kind err)
    else s
  | none => s

/-! ### The ports of the levee crossings into the grid (R158, R175) -/

/-- f is the second flit of a sheet whose first has taken the edge link. -/
def VFlit.follows (f : VFlit) (l : List VFlit) : Bool :=
  f.last && !(l.any fun g => !g.last && g.qref == f.qref && g.dest == f.dest)

/-- The flit that an edge link brings next into a tile: the second of the sheet under way, or the first of the sheet with the
earliest deadline that waits at the port. -/
def edgeNext (s : State) (t port : Nat) : Option VFlit :=
  let l := s.inb t port
  match l.find? fun f => f.follows l with
  | some f => some f
  | none => edfFirst (flitKey s) (l.filter fun f => !f.last && decide (f.since ≤ s.cycle))

/-- A scheduled flit has come in by an edge link in this cycle. -/
def edgeTaken (s : State) (t port : Nat) : Bool := (tget [] s.mesh.caps (t * 8 + if port % 2 = 1 then 6 else 7)).head? == some s.ticks

/-- An edge link takes one flit a cycle, when no scheduled one has it and the input buffer of the edge tile has room for the
two of a sheet (R175, R178, R182); the flit is at the router 2 cycles later (R183). -/
def edgeIn (t port : Nat) (s : State) : State :=
  match edgeNext s t port with
  | some f =>
    if edgeTaken s t port || (!f.last && decide (6 < (s.vb t port false).length)) then s
    else
      (s.setInb t port ((s.inb t port).erase f)).setVb t port false (s.vb t port false ++ [{ f with since := s.cycle + 2 }])
  | none => s

def execVc2FlitForward (t : TileId) (inp : MPort) (vc3 : Vc2In) (s : State) : Res :=
  .next (vForward t.val (mportCode inp) vc3.vc3 vc3.err s)

end Sys2Proof.Machine
end

