-- ==== Sys2Proof/Machine/Pulp.lean ====
section
/-!
DEFINITION. The pulp engines: starting a phase (R192–R195), items and their results (R190, R191, R200, R204), stealing
(R196–R199), hash tables (R202, R203), and the end of a phase (R206–R210).
-/
namespace Sys2Proof.Machine

/-! ### Descriptor (R192) -/

def State.pl (s : State) (t : Nat) : Pulp := tget {} s.pulp t
def State.setPl (s : State) (t : Nat) (p : Pulp) : State := { s with pulp := tset {} s.pulp t p }

def Pulp.fd (p : Pulp) (hi lo : Nat) : Nat := fld (leNat p.desc) hi lo
def Pulp.op (p : Pulp) : Nat := p.fd 3 0
def Pulp.red (p : Pulp) : Nat := p.fd 5 4
def Pulp.fmt (p : Pulp) : Nat := p.fd 9 6
def Pulp.dst (p : Pulp) : Nat := p.fd 10 10
def Pulp.tag (p : Pulp) : Nat := p.fd 21 16
/-- S, the row size in sheets (R190). -/
def Pulp.rowS (p : Pulp) : Nat := p.fd 31 28 + 1
def Pulp.win (p : Pulp) : Nat := p.fd 63 32
def Pulp.wb (p : Pulp) : Nat := p.fd 95 64
def Pulp.wmb (p : Pulp) : Nat := p.fd 127 96
def Pulp.brec (p : Pulp) : Nat := p.fd 145 128
def Pulp.in0 (p : Pulp) : Nat := p.fd 207 160
def Pulp.in1 (p : Pulp) : Nat := p.fd 255 208
def Pulp.srcVa (p : Pulp) : Nat := p.fd 303 256
def Pulp.outVa (p : Pulp) : Nat := p.fd 351 304
def Pulp.outTsa (p : Pulp) : Nat := p.fd 369 352
def Pulp.drops (p : Pulp) : Nat := p.fd 395 378
def Pulp.log2b (p : Pulp) : Nat := p.fd 399 396
def Pulp.line (p : Pulp) : Nat := p.fd 409 400
def Pulp.hseed (p : Pulp) : Nat := p.fd 447 416

/-- A reserved encoding in the first 32 bytes, FMT or RED wrong for OP, or WIN 0 (R192, R193). -/
def Pulp.badLow (p : Pulp) : Bool :=
  p.op == 0 || 9 ≤ p.op || p.red == 3 || (p.op != 2 && p.red != 0) ||
    (if p.op ≤ 3 then p.fmt != 0xA && p.fmt != 0x8 else p.fmt != 0) || p.win == 0 ||
    p.fd 15 11 != 0 || p.fd 27 22 != 0 || p.fd 135 128 != 0 || p.fd 159 146 != 0

/-- A reserved encoding in the second 32 bytes. -/
def Pulp.badHigh (p : Pulp) : Bool :=
  p.fd 511 448 != 0 || p.fd 415 410 != 0 || 9 < p.log2b || p.fd 379 378 != 0 || p.fd 377 370 != 0 || p.fd 359 352 != 0 ||
    p.fd 311 304 != 0

/-- The tile of a group rank in the polder of a tile (R195). -/
def groupTile (t r : Nat) : Nat := (t / 48 / 12 * 12 + r / 12) * 48 + (t % 48 / 12 * 12 + r % 12)

/-- First item of the home range of a rank (R195). -/
def homeLo (n r : Nat) : Nat := n * r / 144

/-- The group rank whose home range holds an item (R195). -/
def homeRank (n i : Nat) : Nat := ((List.range 144).find? fun r => decide (i < homeLo n (r + 1))).getD 0

/-! ### Accesses of the program during a phase (R205) -/

/-- A run of the tile store meets the home slots, or the table lines, of a phase. -/
def Pulp.touched (p : Pulp) (t : Nat) (segs : List (Nat × Nat)) : Bool :=
  let r := groupRank t
  let slots : Nat × Nat := (p.outTsa, (homeLo p.n (r + 1) - homeLo p.n r) * 256 * (if p.op = 5 then 1 else p.rowS))
  let table : Nat × Nat := (256 * p.line, 256 * 2 ^ p.log2b)
  let hit (g : Nat × Nat) : Bool := segs.any fun e => decide (e.1 < g.1 + g.2 ∧ g.1 < e.1 + e.2)
  (p.active && p.dst == 0 && (p.op ≤ 2 || p.op == 5 || p.op == 8) && hit slots) ||
    ((p.active || p.refused) && (p.op == 4 || p.op == 5) && hit table)

/-- The engine knows its phase: its descriptor and, unless it was refused, the record of its group. -/
def Pulp.known (p : Pulp) : Bool := p.desc.length == 64 && !p.setup

def touchHaz (t cyc : Nat) (s : State) : State := s.hazard t (leBytes 0x03 1 ++ leBytes 1 3 ++ leBytes cyc 4)

/-- The accesses that came before the engine knew its phase are looked at. -/
def pulpEarly (t : Nat) (s : State) : State :=
  let p := s.pl t
  if p.known && !p.early.isEmpty then
    p.early.foldl (fun s e => if p.touched t e.2 then touchHaz t e.1 s else s) (s.setPl t { p with early := [] })
  else s

/-- A scheduled access of a tile to its home slots or table lines during a phase is reported in debug builds; one that comes before
the engine knows its phase is kept until it does (R205). -/
def pulpTouch (t : Nat) (segs : List (Nat × Nat)) (s : State) : State :=
  let p := s.pl t
  if !(p.active || p.refused) || s.cycle ≤ p.t0 then s
  else if p.known then (if p.touched t segs then touchHaz t s.cycle s else s)
  else s.setPl t { p with early := p.early ++ [(s.cycle, segs)] }

/-! ### Starting a phase (R193) -/

/-- The refusal of a pulp.start issued in a cycle: Q6 halts with cause 4 (R193). The registers of the phase show it when a
phase's tag completes (R210). -/
def pulpRefuse (t issue tag : Nat) (s : State) : State :=
  let s := s.setPl t { s.pl t with refusedAt := some issue }
  let s := s.hazard t (leBytes 0x03 1 ++ leBytes 3 3 ++ leBytes s.cycle 4)
  queueHalt t 6 4 tag 0 (some (0, 0)) s

/-- An engine whose start was refused: it serves requests and has no items (R193). -/
def Pulp.refuse (p : Pulp) : Pulp := { p with active := false, refused := true, finished := true, lo := 0, hi := 0, gated := true }

/-- The first half of a pulp descriptor is read: the engine takes Q6 and Q7, its clock runs (R44) and the tag counts the
phase, or the start is refused (R193). A refused start keeps its descriptor with a byte more. -/
def pulpHalf0 (t issue : Nat) (raw : Bytes) (s : State) : State :=
  let p : Pulp := { desc := raw }
  let keep (s : State) (b : Bytes) : State := s.modTile t fun x => { x with ld := tput x.ld (8 * issue + 4) b }
  if (s.pl t).active then
    pulpRefuse t issue p.tag s
  else if p.badLow || (s.tag t p.tag).count != 0 || !(s.qEnts t 6).isEmpty || !(s.qEnts t 7).isEmpty then
    keep (pulpRefuse t issue p.tag s) (raw ++ [0])
  else
    keep ((s.setPl t { desc := raw, t0 := issue, active := true, gated := false, inbox := (s.pl t).inbox,
                       refusedAt := (s.pl t).refusedAt }).tagUp t p.tag) raw

/-- The second half: the engine has its descriptor, and the record of its group is still to be read (R193). -/
def pulpHalf1 (t issue : Nat) (raw : Bytes) (s : State) : State :=
  match tfind (s.tile t).ld (8 * issue + 4) with
  | none => s
  | some low =>
    let s := s.modTile t fun x => { x with ld := tdel x.ld (8 * issue + 4) }
    let p : Pulp := { (s.pl t) with desc := low.take 32 ++ raw }
    if low.length ≠ 32 then pulpEarly t (s.setPl t p.refuse)
    else if p.badHigh then pulpRefuse t issue p.tag (pulpEarly t ((s.setPl t p.refuse).tagDown t p.tag))
    else pulpEarly t (s.setPl t { p with setup := !p.stopped, nosteal := s.rf Reg.PULP_CTRL 0 0 == 1 })

/-- pulp.start: two scheduled reads of 32 bytes (R193). -/
def opPulpStart (u : Site) (ra : GReg) (s : State) : State :=
  if s.on u then
    let a := s.rd u ra
    if tsOk a 64 64 then
      let s := s.access (.read u.tile.val rkDesc 0 [(a.toNat, 32)] (.pulpDesc 0 s.cycle))
      s.accessAt (s.cycle + 1) (.read u.tile.val rkDesc 0 [(a.toNat + 32, 32)] (.pulpDesc 1 s.cycle))
    else s.badOperand u slotX
  else s

def execPulpStart (u : Site) (ra : GReg) (s : State) : Res := .next (opPulpStart u ra s)

/-! ### The own tile store -/

/-- Granules of the own tile store that an engine needs and has not read yet, as far as bank-cycles are free (R39, R205);
those in a closed bank read as zeros (R129). -/
def pulpGather (t : Nat) (need : List Nat) (s : State) : State :=
  let want := need.filter fun G => (tfind (s.pl t).got G).isNone
  let r := freeRead t want s
  let got := (want.filter fun G => !r.2.2.contains G).foldl (fun (g : Tbl Bytes) G =>
    tput g G (if r.2.1.contains G then r.1.ts t (8 * G) 8 else List.replicate 8 0)) (s.pl t).got
  r.1.setPl t { r.1.pl t with got := got }

/-- An engine has read every granule of a list. -/
def Pulp.has (p : Pulp) (need : List Nat) : Bool := need.all fun G => (tfind p.got G).isSome

/-- Bytes of a run whose granules an engine has read. -/
def Pulp.run (p : Pulp) (a n : Nat) : Bytes := (((granules a n).flatMap fun G => padTo (tget [] p.got G) 8).drop (a % 8)).take n

/-- The engine reads the record of its group and takes its home range (R193–R195, R208). -/
def pulpSetup (t : Nat) (s : State) : State :=
  if (s.pl t).setup then
    let a := (s.pl t).brec + 16 + 12 * polderOf t
    let s := pulpGather t (granules a 12) s
    let p := s.pl t
    if p.has (granules a 12) then
      let b := p.run a 12
      let n := leAt b 0 4
      let rank := groupRank t
      pulpEarly t (s.setPl t
        { p with setup := false, got := [], n := n, overBudget := decide (p.wb < leAt b 4 4 ∨ p.wmb < leAt b 8 4),
                 lo := homeLo n rank, hi := homeLo n (rank + 1), finished := decide (n = 0),
                 doneAt := if n = 0 then some s.cycle else none })
    else s
  else s

/-! ### Reading and writing -/

/-- What an item has done so far: the state, the sheets of HBM that are still to be read, whether what follows depends on one of
them, and whether Q7 has no place for its output. Where sheets are missing, or Q7 is full, the item has done nothing yet. -/
structure PAt where
  s : State
  miss : List Nat := []
  blind : Bool := false
  full : Bool := false

/-- The item has all it needs. -/
def PAt.ready (x : PAt) : Bool := x.miss.isEmpty && !x.full

/-- Virtual sheet numbers of n bytes from an address. -/
def sheetsFrom (va n : Nat) : List Nat := rangeFrom (va / 256) (if n = 0 then 0 else (va + n - 1) / 256 + 1 - va / 256)

/-- The sheet that an engine has read, where it has it now. -/
def Pulp.sheet (p : Pulp) (c n : Nat) : Option Bytes := ((tfind p.cache n).filter fun e => decide (e.1 ≤ c)).map (·.2)

/-- n bytes of HBM as the engine has read them through Q6 (R200; log entry 181). -/
def pulpRead (t va n : Nat) (x : PAt) : PAt × Bytes :=
  if x.blind then (x, List.replicate n 0)
  else
    let p := x.s.pl t
    let l := sheetsFrom va n
    let lack := l.filter fun k => (p.sheet x.s.cycle k).isNone && !x.miss.contains k
    ({ x with miss := x.miss ++ lack }, ((l.flatMap fun k => padTo ((p.sheet x.s.cycle k).getD []) 256).drop (va % 256)).take n)

/-- The bytes of an output that lie in its sheets, from an offset in the first on. -/
def outPieces (off : Nat) (b : Bytes) : Nat → List Bytes
  | 0 => []
  | fuel + 1 => if b.isEmpty then [] else b.take (256 - off) :: outPieces 0 (b.drop (256 - off)) fuel

/-- An output to HBM enters Q7 as a write with FB 0b00 and D = t0 + WIN, when it has a place (R200). -/
def pulpWrite (t va : Nat) (data : Bytes) (x : PAt) : PAt :=
  if data.isEmpty then x
  else if 8 ≤ (x.s.qEnts t 7).length then { x with full := true }
  else
    let p := x.s.pl t
    let ps := outPieces (va % 256) data (data.length + 1)
    let d : Desc := { shlev := 0, shoff := 0, ver := 0, entry := 0, tsa := 0, va := va / 256 * 256, deadline := 0, len := ps.length,
                      wv := false, tag := Fin.ofNat 64 p.tag, fb := 0, fmt := 0, op := 1, raw := [] }
    let e : QEnt := { uid := x.s.uid, kind := .pulpOut (va % 256), d := d, dl := p.t0 + p.win,
                      src := ps.zipIdx.map fun b => (b.2, b.1, crc32c (padTo b.1 256)) }
    { x with s := { x.s with uid := x.s.uid + 1 }.setEnts t 7 (x.s.qEnts t 7 ++ [e]) }

/-- n 32-bit words from an address. -/
def pulpWords (t va n : Nat) (x : PAt) : PAt × List Nat :=
  let r := pulpRead t va (4 * n) x
  (r.1, (toWords r.2).map (·.toNat))

/-- n 32-bit words that say what is read next. -/
def pulpIdx (t va n : Nat) (x : PAt) : PAt × List Nat :=
  let r := pulpWords t va n x
  ({ r.1 with blind := !r.1.miss.isEmpty }, r.2)

/-- Output for the own tile store waits for the deposit buffer (R200). -/
def pulpStore (t a : Nat) (b : Bytes) (chk : Option Word) (s : State) : State :=
  let w : DepWrite := { addr := a, data := b, writer := 3, q := 0, uid := 0, sheet := 0, chk := chk, part := chk.isNone, since := s.cycle }
  depRefill t (s.setPl t { s.pl t with outq := (s.pl t).outq ++ [w] }) 1

/-- Bytes for the tile store of a tile of the group: the own one, or on VC2 as the two flits of a sheet, or as bytes within a
sheet (R200). -/
def pulpLocal (t dest a : Nat) (b : Bytes) (chk : Option Word) (s : State) : State :=
  let f : VFlit := { dest := dest, kind := 0, src := t, addr := a, data := b, since := 0, born := 0 }
  if dest = t then pulpStore t a b chk s
  else
    match chk with
    | some c => (sheetFlits f b c).foldl (fun s f => vOffer t f s) s
    | none => vOffer t f s

/-- The sheets of a slot (R192, R200). -/
def pulpSheets (t dest a : Nat) (b : Bytes) (s : State) : Nat → State
  | 0 => s
  | n + 1 =>
    let s := pulpLocal t dest a (b.take 256) (some (crc32c (b.take 256))) s
    pulpSheets t dest (a + 256) (b.drop 256) s n

/-- Slot i of the phase takes its bytes (R192). -/
def slotOut (t i sheets : Nat) (b : Bytes) (x : PAt) : PAt :=
  let p := x.s.pl t
  if p.dst = 1 then pulpWrite t (p.outVa + i * 256 * sheets) b x
  else
    let h := homeRank p.n i
    let a := p.outTsa + (i - homeLo p.n h) * 256 * sheets
    if a + 256 * sheets ≤ tsSize then { x with s := pulpSheets t (groupTile t h) a b x.s sheets } else x

/-! ### Items (R190, R191, R204) -/

/-- Flags of an item go to its home tile (R191). -/
def homeFlags (t i m : Nat) (x : PAt) : PAt :=
  let p := x.s.pl t
  { x with s := x.s.flagAt (groupTile t (homeRank p.n i)) x.s.cycle (BitVec.ofNat 8 m) }

/-- The elements of a row as FP32 bit patterns: widening is exact (R191). -/
def rowVals (fmt : Nat) (b : Bytes) : List Nat :=
  (unpackElems fmt b).map fun v => if fmt = 0xA then v else v * 65536

/-- FP32 results written in the format of the phase (R60, R191): bytes and flags. -/
def pulpRow (fmt : Nat) (l : List Nat) : Bytes × Nat :=
  if fmt = 0xA then (packElems 0xA l, 0)
  else
    let c := l.map fun v => cvtPlain 8 .rne (unpack fp32 v)
    (packElems 8 (c.map (·.1)), c.foldl (fun m v => m ||| v.2) 0)

/-- The array's flags as the flags an engine sets: a NaN from the addition is AF_NV, overflow AF_OF (R191). -/
def pulpFlag (m : Nat) : Nat := (if m &&& AF.ANAN != 0 then AF.NV else 0) ||| (if m &&& AF.AOF != 0 then AF.OF else 0)

/-- One element of a reduction: sum, max or min (R191); a signalling NaN among the operands of a sum is AF_NV (R73). -/
def redElem (red : Nat) (a b : Nat) : Nat × Nat :=
  match red with
  | 0 => let r := accumulate (some a) (unpack fp32 b); (r.1, pulpFlag r.2 ||| (unpack fp32 a).nv ||| (unpack fp32 b).nv)
  | 1 => fMinMax fp32 true false a b
  | _ => fMinMax fp32 false false a b

/-- Rows reduced in order; the first starts the reduction. -/
def redRows (red : Nat) : List (List Nat) → Option (List Nat × Nat)
  | [] => none
  | r :: rs => some (rs.foldl (fun acc b =>
      let l := (acc.1.zip b).map fun p => redElem red p.1 p.2
      (l.map (·.1), l.foldl (fun m v => m ||| v.2) acc.2)) (r, 0))

/-- What an empty segment gives: +0, −∞ or +∞ (R191). -/
def redEmpty (red : Nat) : Nat :=
  match red with
  | 0 => 0
  | 1 => 0xFF800000
  | _ => 0x7F800000

/-- The rows of segment i: their ids from IN1, their values from SRC. -/
def segRows (t i : Nat) (x : PAt) : PAt × List (List Nat) :=
  let p := x.s.pl t
  let o := pulpIdx t (p.in0 + 4 * i) 2 x
  let lo := o.2.getD 0 0
  let ids := pulpIdx t (p.in1 + 4 * lo) (o.2.getD 1 0 - lo) o.1
  ids.2.foldl (fun (r : PAt × List (List Nat)) id =>
    let b := pulpRead t (p.srcVa + id * 256 * p.rowS) (256 * p.rowS) r.1
    (b.1, r.2 ++ [rowVals p.fmt b.2])) (ids.1, [])

/-- Elements of a row. -/
def Pulp.rowLen (p : Pulp) : Nat := p.rowS * (if p.fmt = 0xA then 64 else 128)

def itemGather (t i : Nat) (x : PAt) : PAt :=
  let p := x.s.pl t
  let ix := pulpIdx t (p.in0 + 4 * i) 1 x
  let n := ix.2.getD 0 0
  if n = 0xFFFFFFFF then slotOut t i p.rowS (List.replicate (256 * p.rowS) 0) ix.1
  else
    let b := pulpRead t (p.srcVa + n * 256 * p.rowS) (256 * p.rowS) ix.1
    slotOut t i p.rowS b.2 b.1

def itemSegred (t i : Nat) (x : PAt) : PAt :=
  let p := x.s.pl t
  let r := segRows t i x
  let v := (redRows p.red r.2).getD (List.replicate p.rowLen (redEmpty p.red), 0)
  let o := pulpRow p.fmt v.1
  slotOut t i p.rowS o.1 (homeFlags t i (v.2 ||| o.2) r.1)

def itemScatter (t i : Nat) (x : PAt) : PAt :=
  let p := x.s.pl t
  let d := pulpIdx t (p.in0 + 4 * (p.n + 1) + 4 * i) 1 x
  let row := d.2.getD 0 0
  let bad := match p.lastDest with
    | some l => decide (row ≤ l)
    | none => false
  let s := if bad then d.1.s.hazard t (leBytes 0x03 1 ++ leBytes 2 3 ++ leBytes d.1.s.cycle 4) else d.1.s
  let s := s.setPl t { s.pl t with lastDest := some row }
  let r := segRows t i { d.1 with s := s }
  match redRows 0 r.2 with
  | none => r.1
  | some v =>
    let va := p.outVa + row * 256 * p.rowS
    let old := pulpRead t va (256 * p.rowS) r.1
    let sum := ((rowVals p.fmt old.2).zip v.1).map fun q => redElem 0 q.1 q.2
    let o := pulpRow p.fmt (sum.map (·.1))
    pulpWrite t va o.1 (homeFlags t i (sum.foldl (fun m q => m ||| q.2) (v.2 ||| o.2)) old.1)

/-- Stable ascending order of keys with their payloads. -/
def insPair (e : Nat × Nat) : List (Nat × Nat) → List (Nat × Nat)
  | [] => [e]
  | f :: r => if e.1 < f.1 then e :: f :: r else f :: insPair e r
def sortPairs (l : List (Nat × Nat)) : List (Nat × Nat) := l.foldl (fun acc e => insPair e acc) []

def wordBytes (l : List Nat) : Bytes := l.flatMap fun v => leBytes v 4

def itemSort (t i : Nat) (x : PAt) : PAt :=
  let p := x.s.pl t
  let total := pulpWords t (p.in0 + 4 * p.n) 1 x
  let o := pulpIdx t (p.in0 + 4 * i) 2 total.1
  let lo := o.2.getD 0 0
  let n := o.2.getD 1 0 - lo
  let ks := pulpWords t (p.in1 + 4 * lo) n o.1
  let vs := pulpWords t (p.srcVa + 4 * lo) n ks.1
  let r := sortPairs (ks.2.zip vs.2)
  pulpWrite t (p.outVa + 4 * total.2.getD 0 0 + 4 * lo) (wordBytes (r.map (·.2)))
    (pulpWrite t (p.outVa + 4 * lo) (wordBytes (r.map (·.1))) vs.1)

def itemCompact (t i : Nat) (x : PAt) : PAt :=
  let p := x.s.pl t
  let o := pulpIdx t (p.in0 + 4 * i) 2 x
  let lo := o.2.getD 0 0
  let n := o.2.getD 1 0 - lo
  let vs := pulpWords t (p.in1 + 4 * lo) n o.1
  let fs := pulpWords t (p.srcVa + 4 * lo) n vs.1
  let keep := ((vs.2.zip fs.2).filter fun e => e.2 != 0).map (·.1)
  let y := pulpWrite t (p.outVa + 4 * lo) (wordBytes keep) fs.1
  let a := p.outTsa + 4 * i
  if a + 4 ≤ tsSize then { y with s := pulpLocal t (groupTile t (homeRank p.n i)) a (leBytes keep.length 4) none y.s } else y

/-- Two lists merged from their starts: the list with the smaller head advances, equal heads emit (R204). -/
def mergeIds (a b : List Nat) : Nat → List Nat
  | 0 => []
  | fuel + 1 =>
    match a, b with
    | x :: ra, y :: rb =>
      if x = y then x :: mergeIds ra rb fuel else if x < y then mergeIds ra (y :: rb) fuel else mergeIds (x :: ra) rb fuel
    | _, _ => []

/-- INTERSECT. The words of the slot to which the spec gives no value are free values that the inputs of the item fix (R201;
log entry 21). -/
def itemIntersect (t i : Nat) (x : PAt) : PAt :=
  let p := x.s.pl t
  let oa := pulpWords t (p.in0 + 4 * i) 2 x
  let ob := pulpIdx t (p.srcVa + 4 * i) 2 oa.1
  let a := pulpWords t (p.in1 + 4 * oa.2.getD 0 0) (oa.2.getD 1 0 - oa.2.getD 0 0) ob.1
  let b := pulpWords t (p.srcVa + 4 * (p.n + 1) + 4 * ob.2.getD 0 0) (ob.2.getD 1 0 - ob.2.getD 0 0) a.1
  let common := mergeIds a.2 b.2 (a.2.length + b.2.length)
  let fit := common.take (64 * p.rowS - 1)
  let open' := (rangeFrom fit.length (64 * p.rowS - 1 - fit.length)).map fun w => (Config.slotWord (leNat p.desc) a.2 b.2 w).toNat
  slotOut t i p.rowS (wordBytes (common.length :: fit ++ open')) b.1

/-! ### Hash tables (R202, R203) -/

/-- The 32-bit finalising mix of R202. -/
def hpos (k seed : Nat) : Nat :=
  let h := BitVec.ofNat 32 k ^^^ BitVec.ofNat 32 seed
  let h := h ^^^ (h >>> 16)
  let h := h * 0x85EBCA6B#32
  let h := h ^^^ (h >>> 13)
  let h := h * 0xC2B2AE35#32
  (h ^^^ (h >>> 16)).toNat

/-- The padding key. -/
abbrev padKey : Nat := 0xFFFFFFFF

/-- A request for the owner of a key: over VC2, or into the own inbox. -/
def tableSend (t k kind : Nat) (args : List Nat) (s : State) : State :=
  let o := groupTile t (hpos k (s.pl t).hseed % 144)
  let f : VFlit := { dest := o, kind := 4, src := t, args := kind :: k :: args, since := 0, born := 0 }
  if o = t then s.setPl t { s.pl t with inbox := (s.pl t).inbox ++ [pulpMsg f (groupRank t) s.cycle] } else vOffer t f s

/-- Record of a key that is absent, or of a padding key (R203). -/
def absentRec (k : Nat) : Bytes := leBytes k 4 ++ leBytes 0xFFFFFFFF 4 ++ leBytes 0 8

/-- Insert requests of an engine that no owner has served yet. -/
def insertsOut (s : State) (t : Nat) : Nat :=
  let mine (f : VFlit) : Bool := f.kind == 4 && f.src == t && f.args.head? == some 2
  let inMsg (m : PulpMsg) : Bool := match m with
    | .insert _ _ _ r _ => r == groupRank t
    | _ => false
  (s.mesh.offer.foldl (fun n e => n + (e.2.filter mine).length) 0) + (s.mesh.vbuf.foldl (fun n e => n + (e.2.filter mine).length) 0) +
    s.pulp.foldl (fun n e => if polderOf e.1 = polderOf t then n + (e.2.inbox.filter inMsg).length else n) 0

/-- The engine may send one more request: it has fewer than eight outstanding, and its own inbox has a place (R199). -/
def maySend (s : State) (t : Nat) : Bool :=
  decide ((if (s.pl t).op = 4 then insertsOut s t else (s.pl t).outstanding) < 8) && decide ((s.pl t).inbox.length < 32)

/-- HINSERT and HPROBE: the requests of the next keys of the item leave; a padding key has none (R199, R203). -/
def keysMore (t i : Nat) (s : State) : Nat → State
  | 0 => s
  | fuel + 1 =>
    let p := s.pl t
    if p.asked < 16 ∧ p.keys.length = 16 ∧ maySend s t = true then
      let k := p.keys.getD p.asked 0
      if k = padKey then
        keysMore t i (s.setPl t { p with asked := p.asked + 1, recs := tput p.recs p.asked (absentRec k) }) fuel
      else if p.op = 4 then
        keysMore t i (tableSend t k 2 [i, p.vals.getD p.asked 0] (s.setPl t { p with asked := p.asked + 1 })) fuel
      else
        keysMore t i (tableSend t k 3 [i, p.asked]
          (s.setPl t { p with asked := p.asked + 1, outstanding := p.outstanding + 1 })) fuel
    else s

/-- The keys of an HINSERT or HPROBE item, and the values of an HINSERT item. -/
def keysAt (t i : Nat) (s : State) : PAt × List Nat × List Nat :=
  let p := s.pl t
  let ks := pulpWords t (p.in0 + 64 * i) 16 { s := s }
  let vs := if p.op = 4 then pulpWords t (p.in1 + 64 * i) 16 ks.1 else (ks.1, [])
  (vs.1, ks.2, vs.2)

/-- They are taken when the engine has read their sheets. -/
def keysRead (t i : Nat) (s : State) : State :=
  let p := s.pl t
  let r := keysAt t i s
  if p.keys.isEmpty && r.1.ready then s.setPl t { p with keys := r.2.1, vals := r.2.2 } else s

/-- The engine advances an item of a hash table: its keys and the requests they make. -/
def keysGo (t : Nat) (s : State) : State :=
  let p := s.pl t
  match p.item with
  | some i => if p.op = 4 ∨ p.op = 5 then keysMore t i (keysRead t i s) 16 else s
  | none => s

def itemProbe (t i : Nat) (x : PAt) : PAt :=
  slotOut t i 1 ((List.range 16).flatMap fun j => padTo (tget [] (x.s.pl t).recs j) 16) x

/-- The item in progress is finished: its output is written (R190, R200). -/
def itemRun (t i : Nat) (s : State) : PAt :=
  let x : PAt := { s := s }
  match (s.pl t).op with
  | 1 => itemGather t i x
  | 2 => itemSegred t i x
  | 3 => itemScatter t i x
  | 4 => x
  | 5 => itemProbe t i x
  | 6 => itemSort t i x
  | 7 => itemCompact t i x
  | _ => itemIntersect t i x

/-- The sheets that the item in progress still waits for. -/
def itemMiss (t i : Nat) (s : State) : List Nat :=
  let p := s.pl t
  if p.op = 4 ∨ p.op = 5 then (if p.keys.isEmpty then (keysAt t i s).1.miss else []) else (itemRun t i s).miss

/-- A sheet is asked for through Q6, which takes up to eight reads, with D = t0 + WIN as outputs have it (R190, R200; log entry
181). -/
def pulpAsk (t : Nat) (s : State) (n : Nat) : State :=
  let p := s.pl t
  let l := s.qEnts t 6
  if 8 ≤ l.length || (tfind p.cache n).isSome || l.any fun e => e.kind == .pulpIn && e.d.va == 256 * n then s
  else
    let d : Desc := { shlev := 0, shoff := 0, ver := 0, entry := 0, tsa := 0, va := 256 * n, deadline := 0, len := 1,
                      wv := false, tag := Fin.ofNat 64 p.tag, fb := 0, fmt := 0, op := 0, raw := [] }
    let e : QEnt := { uid := s.uid, kind := .pulpIn, d := d, dl := p.t0 + p.win }
    { s with uid := s.uid + 1 }.setEnts t 6 (l ++ [e])

/-- The engine asks for what its item lacks. -/
def itemFetch (t : Nat) (s : State) : State :=
  match (s.pl t).item with
  | some i => (itemMiss t i s).foldl (fun s n => pulpAsk t s n) s
  | none => s

/-- Length of the segment whose two offsets stand at an address. -/
def segLen (s : State) (t va : Nat) : Nat :=
  let o := (pulpWords t va 2 { s := s }).2
  o.getD 1 0 - o.getD 0 0

/-- c_i, the engine cycles of item i (R190). -/
def itemCost (s : State) (t i : Nat) : Nat :=
  let p := s.pl t
  let l := segLen s t (p.in0 + 4 * i)
  match p.op with
  | 1 => 2 + 8 * p.rowS
  | 2 => 4 + 8 * p.rowS * l
  | 3 => 4 + 8 * p.rowS * (l + 1)
  | 4 => 72
  | 5 => 72
  | 6 => 16 + 4 * l
  | 7 => 4 + (l + 7) / 8
  | _ => 4 + (l + segLen s t (p.srcVa + 4 * i) + 7) / 8

/-! ### Taking work (R196–R199) -/

/-- The victims of the engine at local position (a, b), in order (R197). -/
def ringWalk : List (Int × Int × Nat) → Int × Int → List (Int × Int)
  | [], _ => []
  | (_, _, 0) :: l, p => ringWalk l p
  | (dr, dc, n + 1) :: l, p =>
    (List.range (n + 1)).map (fun m => (p.1 + dr * (m + 1 : Nat), p.2 + dc * (m + 1 : Nat))) ++
      ringWalk l (p.1 + dr * (n + 1 : Nat), p.2 + dc * (n + 1 : Nat))

def ring (a b k : Nat) : List (Int × Int) :=
  let start : Int × Int := ((a : Int) - k, (b : Int))
  start :: ringWalk [(0, 1, k), (1, 0, 2 * k), (0, -1, 2 * k), (-1, 0, 2 * k), (0, 1, k - 1)] start

def victims (a b : Nat) : List Nat :=
  (rangeFrom 1 11).flatMap fun k => (ring a b k).filterMap fun p =>
    if 0 ≤ p.1 ∧ p.1 ≤ 11 ∧ 0 ≤ p.2 ∧ p.2 ≤ 11 then some (12 * p.1.toNat + p.2.toNat) else none

/-- The engine asks victim v of its order, once it may send a request, or is finished when every victim has answered empty (R197,
R199). -/
def askVictim (t v : Nat) (s : State) : State :=
  let p := s.pl t
  match (victims (t / 48 % 12) (t % 48 % 12))[v]? with
  | some r =>
    if !maySend s t then s else
    vOffer t { dest := groupTile t r, kind := 4, src := t, args := [1], since := 0, born := 0 }
      (s.setPl t { p with search := some v, awaiting := true })
  | none => s.setPl t { p with search := none, awaiting := false, finished := true, doneAt := some s.cycle }

/-- The engine has a phase under way, its range, and no item, and may act in this cycle (R193, R196). -/
def Pulp.idle (p : Pulp) (c : Nat) : Bool :=
  p.active && !p.stopped && !p.setup && p.desc.length == 64 && p.item.isNone && decide (p.t0 + 8 ≤ c ∧ p.gotAt ≤ c)

/-- An idle engine takes item lo; without work it searches, or is finished where stealing is off (R196, R197, R210). -/
def itemTake (t : Nat) (s : State) : State :=
  let p := s.pl t
  if p.idle s.cycle then
    if p.lo < p.hi then
      keysGo t (s.setPl t { p with item := some p.lo, lo := p.lo + 1, since := s.cycle, keys := [], vals := [], asked := 0, outstanding := 0, recs := [], cache := [] })
    else if p.finished || p.awaiting then s
    else if p.nosteal then s.setPl t { p with finished := true, doneAt := some s.cycle }
    else askVictim t ((p.search.map (· + 1)).getD 0) s
  else s

/-- The item in progress has had its cycles, and its table requests are answered. -/
def itemReady (s : State) (t i : Nat) : Bool :=
  let p := s.pl t
  decide (p.since + itemCost s t i ≤ s.cycle) && (p.op != 4 && p.op != 5 || (p.keys.length == 16 && p.asked == 16 && p.outstanding == 0))

/-- PULP_ITEM_DONE: the item in progress is finished, and the next is taken (R196). -/
def pulpItem (t : Nat) (s : State) : State :=
  let p := s.pl t
  if !p.active || p.stopped then s
  else
    match p.item with
    | none => itemTake t s
    | some i =>
      if itemReady s t i then
        let x := itemRun t i s
        if x.ready then itemTake t (x.s.setPl t { x.s.pl t with item := none, cache := [] }) else s
      else s

def execPulpItemDone (t : TileId) (s : State) : Res := .next (pulpItem t.val s)

/-! ### Stealing (R197, R198) -/

def PulpMsg.cyc : PulpMsg → Nat
  | .steal _ c => c
  | .reply _ _ c => c
  | .insert _ _ _ _ c => c
  | .probe _ _ _ _ c => c
  | .probed _ _ _ c => c

def PulpMsg.rank : PulpMsg → Nat
  | .steal r _ => r
  | .insert _ _ _ r _ => r
  | .probe _ _ _ r _ => r
  | _ => 144

def PulpMsg.isReply : PulpMsg → Bool
  | .reply .. => true
  | _ => false

/-- A reply: to a steal request, or the record that a probe brings. -/
def PulpMsg.isAnswer : PulpMsg → Bool
  | .reply .. => true
  | .probed .. => true
  | _ => false

/-- Earlier in an inbox: by arrival, then by group rank (R196). -/
def PulpMsg.before (a b : PulpMsg) : Bool := a.cyc < b.cyc || (a.cyc == b.cyc && a.rank < b.rank)

/-- The next request of an inbox. -/
def nextMsg : List PulpMsg → Option PulpMsg
  | [] => none
  | m :: r => match nextMsg r with
    | some n => if n.before m then some n else some m
    | none => some m

/-- The next request that may be served in this cycle: it arrived in an earlier one, and none was served yet (R196). -/
def toServe (s : State) (t : Nat) : Option PulpMsg :=
  let p := s.pl t
  if p.served = s.cycle + 1 then none
  else (nextMsg (p.inbox.filter fun m => !m.isAnswer)).filter fun m => decide (m.cyc < s.cycle)

/-- A message leaves the inbox. -/
def dropMsg (t : Nat) (m : PulpMsg) (s : State) : State :=
  s.setPl t { s.pl t with inbox := (s.pl t).inbox.erase m, served := s.cycle + 1 }

/-- PULP_STEAL_REQUEST: half of the range is given away, once the engine itself has taken its next item (R196, R198); a
stopped engine and a refused one answer empty (R193, R209). -/
def stealServe (t : Nat) (s : State) : State :=
  match toServe s t with
  | some (.steal r c) =>
    let s := dropMsg t (.steal r c) (itemTake t s)
    let p := s.pl t
    let m := if p.stopped ∨ p.refused then 0 else (p.hi - p.lo) / 2
    vOffer t { dest := groupTile t r, kind := 5, src := t, args := [1, p.hi - m, p.hi], since := 0, born := 0 }
      (s.setPl t { p with hi := p.hi - m })
  | _ => s

def execPulpStealRequest (t : TileId) (s : State) : Res := .next (stealServe t.val s)

/-- PULP_STEAL_REPLY: a reply is taken: its range is worked on from the next cycle, or the next victim is asked (R197,
R199). -/
def stealReply (t : Nat) (s : State) : State :=
  let p := s.pl t
  match p.inbox.find? fun m => m.isReply && decide (m.cyc ≤ s.cycle) with
  | some (.reply lo hi c) =>
    let s := s.setPl t { p with inbox := p.inbox.erase (.reply lo hi c), awaiting := false }
    if p.stopped then s
    else if lo < hi then
      s.setPl t { s.pl t with lo := lo, hi := hi, search := none, awaiting := false, steals := p.steals + 1, lastDest := none,
                              gotAt := s.cycle + 1 }
    else askVictim t (p.search.getD 0 + 1) s
  | _ => s

def execPulpStealReply (t : TileId) (s : State) : Res := .next (stealReply t.val s)

/-! ### Table requests -/

/-- An entry of a bucket: KEY, FIRST, COUNT, VAL. -/
abbrev HEnt := Nat × Nat × Nat × Nat

def bucketOf (b : Bytes) : List HEnt :=
  ((List.range 16).map fun e => (leAt b (16 * e) 4, leAt b (16 * e + 4) 4, leAt b (16 * e + 8) 4, leAt b (16 * e + 12) 4)).filter
    fun e => e.2.2.1 != 0

def bucketBytes (l : List HEnt) : Bytes :=
  padTo (l.flatMap fun e => wordBytes [e.1, e.2.1, e.2.2.1, e.2.2.2]) 256

def insEnt (e : HEnt) : List HEnt → List HEnt
  | [] => [e]
  | f :: r => if e.1 < f.1 then e :: f :: r else f :: insEnt e r

/-- An insert applied to a bucket: the bucket after it, and by how much the drop count advances (R203). -/
def bucketInsert (l : List HEnt) (k i v : Nat) : List HEnt × Nat :=
  if l.any fun e => e.1 == k then
    (l.map fun e => if e.1 = k then
      (if i < e.2.1 then (k, i, e.2.2.1 + 1, v) else (k, e.2.1, e.2.2.1 + 1, e.2.2.2)) else e, 0)
  else if l.length < 16 then (insEnt (k, i, 1, v) l, 0)
  else
    match l.getLast? with
    | some g => if g.1 < k then (l, 1) else (insEnt (k, i, 1, v) l.dropLast, g.2.2.1)
    | none => (l, 0)

/-- Address of the bucket of a key in its owner (R202). -/
def bucketAddr (p : Pulp) (k : Nat) : Nat := 256 * (p.line + hpos k p.hseed / 144 % 2 ^ p.log2b)

/-- Writes of the engine to a run of its own tile store that are still to be made. -/
def storePending (s : State) (t a n : Nat) : Bool :=
  let hit (w : DepWrite) : Bool := w.writer == 3 && decide (w.addr < a + n ∧ a < w.addr + w.data.length)
  (s.pl t).outq.any hit || (s.dep t).any hit

/-- A probe record reaches the engine that asked for it. -/
def probeAnswer (t r i j : Nat) (data : Bytes) (s : State) : State :=
  if groupTile t r = t then s.setPl t { s.pl t with inbox := (s.pl t).inbox ++ [.probed i j data s.cycle] }
  else vOffer t { dest := groupTile t r, kind := 5, src := t, args := [3, i, j], data := data, since := 0, born := 0 } s

/-- An insert whose bucket the engine has read is applied to it (R203). -/
def insertApply (t k i v : Nat) (m : PulpMsg) (s : State) : State :=
  let p := s.pl t
  let a := bucketAddr p k
  let b := bucketInsert (bucketOf (p.run a 256)) k i v
  let nb := bucketBytes b.1
  let put (s : State) : State := pulpStore t a nb (some (crc32c nb)) (dropMsg t m (s.setPl t { s.pl t with got := [] }))
  if b.2 = 0 then put s
  else
    let s := pulpGather t (granules p.drops 4) s
    if (s.pl t).has (granules p.drops 4) then
      let d := leNat ((s.pl t).run p.drops 4) + b.2
      let s := pulpStore t p.drops (leBytes d 4) none (put s)
      s.setPl t { s.pl t with drop := true }
    else s

/-- PULP_TABLE_REQUEST: an insert or a probe is applied to its bucket, which the engine reads in free bank-cycles once its
own writes to it are made (R39, R203). The engine has taken its next item before (R196). -/
def tableServe (t : Nat) (s : State) : State :=
  let at' (k : Nat) (go : State → State) : State :=
    let s := itemTake t s
    let p := s.pl t
    let a := bucketAddr p k
    if storePending s t a 256 || storePending s t p.drops 4 then s
    else
      let s := pulpGather t (granules a 256) s
      if (s.pl t).has (granules a 256) then go s else s
  match toServe s t with
  | some (.insert k i v r c) => at' k (insertApply t k i v (.insert k i v r c))
  | some (.probe k i j r c) => at' k fun s =>
      let p := s.pl t
      let data := match (bucketOf (p.run (bucketAddr p k) 256)).find? fun e => e.1 == k with
        | some e => wordBytes [e.1, e.2.1, e.2.2.1, e.2.2.2]
        | none => absentRec k
      probeAnswer t r i j data (dropMsg t (.probe k i j r c) (s.setPl t { p with got := [] }))
  | _ => s

def execPulpTableRequest (t : TileId) (s : State) : Res := .next (tableServe t.val s)

/-! ### One cycle of an engine -/

/-- The records that probes bring are taken (R203); a stopped engine has no item for them. -/
def probesIn (t : Nat) (s : State) : State :=
  (s.pl t).inbox.foldl (fun s m =>
    match m with
    | .probed i j data c =>
      if c ≤ s.cycle then
        let p := { s.pl t with inbox := (s.pl t).inbox.erase (.probed i j data c) }
        s.setPl t (if p.item = some i then { p with recs := tput p.recs j data, outstanding := p.outstanding - 1 } else p)
      else s
    | _ => s) s

/-- What an engine does by itself at the start of a cycle: it reads its record, takes its next item, asks for the sheets it needs
and sends what requests it may (R193, R196, R199). -/
def pulpCycle (t : Nat) (s : State) : State := itemFetch t (keysGo t (itemTake t (pulpSetup t (probesIn t s))))

def tickPulp (s : State) : State := s.pulp.foldl (fun s e => depRefill e.1 (if e.2.active then pulpCycle e.1 s else s) 8) s

/-! ### Completion (R206, R208, R210) -/

/-- An engine has finished and has nothing left to serve or to write (R199, R206). -/
def Pulp.quiet (p : Pulp) : Bool := p.finished && !p.setup && p.inbox.isEmpty && p.outq.isEmpty

/-- A flit of a pulp phase: sheet data, a request, a reply, or one of a sheet of Q6 or Q7, which an engine holds. -/
def State.ofPulp (s : State) (f : VFlit) : Bool :=
  f.kind == 0 || f.kind == 4 || f.kind == 5 || (f.kind == 2 && (s.pl f.src).active && f.qref.any fun r => decide (6 ≤ r.1))

/-- Every engine of the program is finished, no pulp flit or queue sheet is in flight, and every output is written or
committed (R206). -/
def pulpQuiet (s : State) : Bool :=
  (s.pulp.any fun e => e.2.active) && (s.pulp.all fun e => !(e.2.active || e.2.refused) || e.2.quiet) &&
    (match s.running with
     | some k => (s.slot k).coded.all fun t => (s.pl t).active || (s.pl t).refused
     | none => true) &&
    (s.mesh.vbuf.all fun e => e.2.all fun f => !s.ofPulp f) && (s.mesh.offer.all fun e => e.2.all fun f => !s.ofPulp f) &&
    (s.mesh.inb.all fun e => e.2.all fun f => !s.ofPulp f) &&
    (s.mesh.deposit.all fun e => e.2.all fun w => w.writer != 3) &&
    s.que.q.all fun e => e.2.all fun x => match x.kind with
      | .pulpOut _ => false
      | .pulpIn => false
      | _ => true

/-- T_done is the first such cycle. -/
def pulpSettle (s : State) : State :=
  if s.pulpDone.isNone && pulpQuiet s then { s with pulpDone := some s.cycle } else s

/-- Lowest tile of the group that finished last. -/
def lastGroupTile (s : State) : Nat :=
  let last := s.pulp.foldl (fun (b : Nat × Nat) e => if b.2 ≤ e.2.doneAt.getD 0 then (e.1, e.2.doneAt.getD 0) else b) (0, 0)
  groupTile last.1 0

/-- The registers of the phase, once for the phase (R208, R210). -/
def pulpRegs (t done : Nat) (s : State) : State :=
  let p := s.pl t
  let act := s.pulp.filter fun e => e.2.active || e.2.refused
  let exceeded := act.any fun e => e.2.overBudget
  let refused := act.any fun e => e.2.refusedAt.isSome
  let drop := act.any fun e => e.2.drop
  let o := done + 32 - (p.t0 + p.win)
  let s := (s.bump Reg.PULP_PHASE_COUNT 1).bump Reg.PULP_STEAL_COUNT (act.foldl (fun n e => n + e.2.steals) 0)
  let s := s.setBits Reg.PULP_STATUS ((if exceeded then 8 else 0) ||| (if refused then 4 else 0) ||| (if drop then 2 else 0) ||| (if 0 < o then 1 else 0))
  let raised := (act.filter fun e => e.2.overBudget || e.2.drop || e.2.refusedAt.isSome).map (·.1)
  let late := lastGroupTile s
  let raised := if 0 < o then late :: raised else raised
  let s := match raised with
    | [] => s
    | a :: r => s.setReg Reg.PULP_FIRST (BitVec.ofNat 32 (r.foldl min a))
  if 0 < o then
    let s := (s.bump Reg.PULP_OVERRUN_COUNT 1).addPair Reg.PULP_OVR_CYC_LO o
    s.log1 Ev.PULP_OVERRUN (Src.tile late)
      (leBytes (polderOf late) 1 ++ leBytes p.op 1 ++ leBytes (b2n exceeded) 1 ++ leBytes p.tag 1 ++ leBytes o 4 ++ leBytes p.win 4 ++
        leBytes s.spanNo 4)
  else s

/-- PULP_PHASE_COMPLETE (R206). An engine that a halt stopped stays noted, for its tile's wait on the tag (R209). -/
def pulpComplete (t : Nat) (s : State) : State :=
  let p := s.pl t
  match p.active, s.pulpDone with
  | true, some done =>
    if max (p.t0 + p.win) (done + 32) ≤ s.cycle then
      let s := if s.pulpLogged then s else { pulpRegs t done s with pulpLogged := true }
      let s := (s.setPl t { s.pl t with active := false, gated := true }).tagDown t p.tag
      if s.pulp.any fun e => e.2.active then s
      else { s with pulp := (s.pulp.filter fun e => e.2.stopped).map fun e => (e.1, { desc := e.2.desc, stopped := true }),
                    pulpDone := none, pulpLogged := false }
    else s
  | _, _ => s

def execPulpPhaseComplete (t : TileId) (s : State) : Res := .next (pulpComplete t.val s)

end Sys2Proof.Machine
end

