-- ==== Sys2Proof/Machine/Weights.lean ====
section
/-!
DEFINITION. Weight versions: pin, unpin, claim and publish of the X slot (R111–R116, R290, R292).
-/
namespace Sys2Proof.Machine

/-- A weight-version operation in the positions of a queue, as the 32 bytes a save writes for it: OP 0b11 (log entry
20), its kind, tag, entry and version. -/
def wvRaw (kind : QKind) (tag : TagNo) : Bytes :=
  match kind with
  | .xfer => []
  | .pulpOut _ => []
  | .pulpIn => []
  | .wvPin e v => leBytes (3 + 256 * tag.val + 2 ^ 16) 4 ++ leBytes e 4 ++ leBytes v 8 ++ leBytes 0 16
  | .wvClaim e => leBytes (3 + 256 * tag.val + 2 ^ 17) 4 ++ leBytes e 4 ++ leBytes 0 24

/-- The entry a saved weight-version operation stands for. -/
def wvOfRaw (raw : Bytes) : QKind :=
  if bitN (leNat raw) 16 then .wvPin (leAt raw 4 4) (leAt raw 8 8) else .wvClaim (leAt raw 4 4)

/-- A failure of a weight-version operation: counted, and its queue halts (R113, R117, R118, R292). -/
def wvOpFail (t q : Nat) (tag : TagNo) (kind entry : Nat) (s : State) : State :=
  queueHalt t q 1 tag.val 0 none ((wvFail kind entry s).bump Reg.TRN_WV_FAULT_COUNT 1)

/-- The READY copy that holds a version changed by a function. -/
def WvEntry.mod (e : WvEntry) (v : Nat) (f : WvCopy → WvCopy) : WvEntry :=
  if e.c0.holds v then { e with c0 := f e.c0 } else { e with c1 := f e.c1 }

/-- What a pin meets (R112, R116). -/
inductive PinResult where
  | done | waits | fails (kind : Nat)
  deriving DecidableEq, Repr

def pinResult (e : WvEntry) (v : Nat) : PinResult :=
  match e.copyOf v with
  | some c => if c.pins = 65535 then .fails 3 else .done
  | none => if e.declared && decide (e.newest < v) then .waits else .fails 0

/-- A pin counted on the copy that holds its version. -/
def pinTake (k entry v : Nat) (s : State) : State :=
  s.setWv k entry ((s.wvEntry k entry).mod v fun c => { c with pins := c.pins + 1 })

/-- A weight-version operation takes a position of its queue and waits (R292). -/
def wvWait (t q : Nat) (tag : TagNo) (kind : QKind) (s : State) : State :=
  let e : QEnt := { uid := s.uid, kind := kind, d := { descOf (wvRaw kind tag) with tag := tag }, dl := s.cycle }
  ({ s with uid := s.uid + 1 }.setEnts t q (s.qEnts t q ++ [e])).tagUp t tag.val

/-- The copy a claim selects: the one that does not hold the newest version (R114). -/
def WvEntry.claimsFirst (e : WvEntry) : Bool := e.c0.ver != some e.newest

def WvEntry.claimed (e : WvEntry) : WvCopy := if e.claimsFirst then e.c0 else e.c1

/-- A claim takes its copy: WRITING, holding no version. -/
def WvEntry.take (e : WvEntry) : WvEntry :=
  let c : WvCopy := { e.claimed with writing := true, ver := none }
  if e.claimsFirst then { e with c0 := c } else { e with c1 := c }

/-- A publish: the WRITING copy becomes READY with the newest version plus one (R115). -/
def WvEntry.publish (e : WvEntry) : WvEntry :=
  let f (c : WvCopy) : WvCopy := { c with writing := false, ver := some (e.newest + 1) }
  if e.c0.writing then { e with c0 := f e.c0, newest := e.newest + 1 }
  else { e with c1 := f e.c1, newest := e.newest + 1 }

def servePublish (t q entry : Nat) (tag : TagNo) (s : State) : State :=
  let k := s.running.getD 0
  let e := s.wvEntry k entry
  if e.writingCopy.isSome then s.setWv k entry e.publish else wvOpFail t q tag 3 entry s

def servePin (t q entry ver : Nat) (tag : TagNo) (s : State) : State :=
  let k := s.running.getD 0
  match pinResult (s.wvEntry k entry) ver with
  | .done => pinTake k entry ver s
  | .waits => wvWait t q tag (.wvPin entry ver) s
  | .fails f => wvOpFail t q tag f entry s

def serveUnpin (t q entry ver : Nat) (tag : TagNo) (s : State) : State :=
  let k := s.running.getD 0
  let e := s.wvEntry k entry
  match e.copyOf ver with
  | some c => if c.pins = 0 then wvOpFail t q tag 3 entry s
    else s.setWv k entry (e.mod ver fun c => { c with pins := c.pins - 1 })
  | none => wvOpFail t q tag 3 entry s

def serveClaim (t q entry : Nat) (tag : TagNo) (s : State) : State :=
  let k := s.running.getD 0
  let e := s.wvEntry k entry
  if e.writingCopy.isSome || !e.declared then wvOpFail t q tag 3 entry s
  else if e.claimed.pins = 0 then s.setWv k entry e.take
  else (wvWait t q tag (.wvClaim entry) s).bump Reg.TRN_WV_STALL_COUNT 1

/-! ### Operations that wait (R112, R114) -/

/-- A waiting operation leaves its queue, its tag completing with KIND 0 (R292). -/
def wvLeave (t q : Nat) (e : QEnt) (s : State) : State :=
  (s.setEnts t q ((s.qEnts t q).filter (·.uid != e.uid))).tagDown t e.d.tag.val

/-- The numbers of the claims that wait on an entry of the version table. -/
def claimsOn (s : State) (entry : Nat) : List Nat :=
  s.que.q.flatMap fun x => (x.2.filter fun e => e.kind == .wvClaim entry).map (·.uid)

/-- What a waiting operation waits for has come: the version of a pin is published, or given up; the pins of the copy that
a claim selects are gone and no claim has waited longer, or another claim has taken the copy (log entry 142). -/
def wvDue (s : State) (e : QEnt) : Bool :=
  let k := s.running.getD 0
  match e.kind with
  | .wvPin en v => pinResult (s.wvEntry k en) v != .waits
  | .wvClaim en =>
    (s.wvEntry k en).writingCopy.isSome || ((s.wvEntry k en).claimed.pins == 0 && (claimsOn s en).all fun u => decide (e.uid ≤ u))
  | _ => false

/-- A waiting operation completes, or fails (R112, R114). -/
def wvGrant (t q : Nat) (e : QEnt) (s : State) : State :=
  let k := s.running.getD 0
  match e.kind with
  | .wvPin en v =>
    match pinResult (s.wvEntry k en) v with
    | .fails f => wvOpFail t q e.d.tag f en (wvLeave t q e s)
    | _ => pinTake k en v (wvLeave t q e s)
  | .wvClaim en =>
    if (s.wvEntry k en).writingCopy.isSome then wvOpFail t q e.d.tag 3 en (wvLeave t q e s)
    else (wvLeave t q e s).setWv k en (s.wvEntry k en).take
  | _ => s

/-- The operations on an entry whose condition holds complete before anything else acts on it, pins before claims
(R112, R114, R116). -/
def wvSettle (entry : Nat) (s : State) : State :=
  let all := s.que.q.flatMap fun x => x.2.map fun e => (x.1, e)
  let pins := all.filter fun x => match x.2.kind with
    | .wvPin en _ => en == entry
    | _ => false
  let claims := all.filter fun x => x.2.kind == .wvClaim entry
  (pins ++ claims).foldl (fun s x => if wvDue s x.2 then wvGrant (x.1 / 8) (x.1 % 8) x.2 s else s) s

/-- The operation of a kind that waits with a tag in a queue and whose condition holds. -/
def wvReady (s : State) (t q tag : Nat) (claim : Bool) : Option QEnt :=
  (s.qEnts t q).find? fun e => e.d.tag.val == tag && wvDue s e && (match e.kind with
    | .wvPin .. => !claim
    | .wvClaim _ => claim
    | _ => false)

/-- WV_PIN_GRANT and WV_CLAIM_GRANT: a waiting operation whose condition holds completes (R112, R114). -/
def grantReady (t q tag : Nat) (claim : Bool) (s : State) : State :=
  match wvReady s t q tag claim with
  | some e => wvGrant t q e s
  | none => s

/-- Claims that wait. -/
def claimsWaiting (s : State) : List Nat :=
  s.que.q.flatMap fun x => x.2.filterMap fun e => match e.kind with
    | .wvClaim en => some en
    | _ => none

/-- A cycle in which claims wait adds one to WS_CYC for each (R118). -/
def claimCycle (s : State) : State :=
  if (claimsWaiting s).isEmpty then s else s.addPair Reg.TRN_WV_STALL_CYC_LO (claimsWaiting s).length

/-- The entry of the claim that waits now; of several, that of the lowest tile and queue (R117; log entry 140). -/
def claimWaiting (s : State) : Option Nat := (claimsWaiting s).head?

/-- A weight-version operation is accepted by its queue (R112–R115, R292). -/
def wvAccept (kind t q entry ver : Nat) (tag : TagNo) (s : State) : State :=
  if 8 ≤ (s.qEnts t q).length then queueHalt t q 3 tag.val 0 none (s.pushHaz t q 3)
  else match kind with
    | 0 => servePublish t q entry tag s
    | 1 => servePin t q entry ver tag s
    | 2 => serveUnpin t q entry ver tag s
    | _ => serveClaim t q entry tag s

/-- A weight-version operation reaches its queue after the waiting ones that are due. -/
def wvServe (kind t q entry ver : Nat) (tag : TagNo) (s : State) : State := wvAccept kind t q entry ver tag (wvSettle entry s)

/-- A weight-version operation issues: it is accepted in the next cycle (R42). -/
def wvIssue (u : Site) (kind : Nat) (q : QNo) (re : GReg) (ver : Nat) (tag : TagNo) (s : State) : State :=
  if s.on u then
    let e := (s.rd u re).toNat
    if e < 4096 then s.sch (s.cycle + 1) (.wv kind u.tile.val q.val e ver tag) else s.badOperand u slotX
  else s

def opWvPin (u : Site) (q : QNo) (re rv : GReg) (tag : TagNo) (s : State) : State := wvIssue u 1 q re (s.rd u rv).toNat tag s
def opWvUnpin (u : Site) (q : QNo) (re rv : GReg) (tag : TagNo) (s : State) : State := wvIssue u 2 q re (s.rd u rv).toNat tag s
def opWvClaim (u : Site) (q : QNo) (re : GReg) (tag : TagNo) (s : State) : State := wvIssue u 3 q re 0 tag s
def opWvPublish (u : Site) (q : QNo) (re : GReg) (tag : TagNo) (s : State) : State := wvIssue u 0 q re 0 tag s

/-- A queue finds the copy of a version descriptor after the waiting operations that are due (R113). -/
def settleFor (t q : Nat) (s : State) : State :=
  match toRelease s t q with
  | some e => if e.d.wv then wvSettle e.d.entry s else s
  | none => s

def execQueueTranslate (t : TileId) (q : QNo) (s : State) : Res := .next (queueTranslate t.val q.val (settleFor t.val q.val s))

def execWvPin (u : Site) (q : QNo) (re rv : GReg) (tag : TagNo) (s : State) : Res := .next (opWvPin u q re rv tag s)
def execWvUnpin (u : Site) (q : QNo) (re rv : GReg) (tag : TagNo) (s : State) : Res := .next (opWvUnpin u q re rv tag s)
def execWvClaim (u : Site) (q : QNo) (re : GReg) (tag : TagNo) (s : State) : Res := .next (opWvClaim u q re tag s)
def execWvPublish (u : Site) (q : QNo) (re : GReg) (tag : TagNo) (s : State) : Res := .next (opWvPublish u q re tag s)
def execWvPinGrant (t : TileId) (q : QNo) (tag : TagNo) (s : State) : Res := .next (grantReady t.val q.val tag.val false s)
def execWvClaimGrant (t : TileId) (q : QNo) (tag : TagNo) (s : State) : Res := .next (grantReady t.val q.val tag.val true s)

end Sys2Proof.Machine
end

