-- ==== Sys2Proof/Machine/Grid.lean ====
section
/-!
DEFINITION. The grid as a whole: its zeroing (R437), what a save writes (R143, R168, R169) and what START and RESUME
load (R171, R375), and the declarations of a span record (R227, R251, R259).
-/
namespace Sys2Proof.Machine

/-! ### Regions of tables -/

/-- A table with the keys of a range replaced by a list whose keys lie in the range and rise. -/
def tsplice {α : Type} (t : Tbl α) (lo n : Nat) (new : Tbl α) : Tbl α :=
  (t.filter fun e => decide (e.1 < lo)) ++ new ++ (t.filter fun e => decide (lo + n ≤ e.1))

/-- Keys of a table raised by a number. -/
def traise {α : Type} (t : Tbl α) (k : Nat) : Tbl α := t.map fun e => (e.1 + k, e.2)

/-- Bytes as a memory from an address on; bytes of 0 are not listed. -/
def memOf (a : Nat) : Bytes → Mem
  | [] => []
  | b :: r => if b = 0 then memOf (a + 1) r else (a, b) :: memOf (a + 1) r

/-! ### Control state (R169) -/

/-- What a tile does, in the bytes of the control state: kind, register, tag or span record, and two cycles. -/
def CoreState.code : CoreState → Nat × Nat × Nat × Nat × Nat
  | .running => (0, 0, 0, 0, 0)
  | .waitTag tag rd since => (1, rd.val, tag.val, 0, since)
  | .waitAll since => (2, 0, 0, 0, since)
  | .waitCyc target rd since => (3, rd.val, 0, target, since)
  | .arrived span since => (4, 0, span, 0, since)
  | .ended => (5, 0, 0, 0, 0)
  | .delayed till => (6, 0, 0, till, 0)

def coreOf (kind rd arg target since : Nat) : CoreState :=
  let r : GReg := ⟨rd % 32, Nat.mod_lt _ (by decide)⟩
  match kind with
  | 0 => .running
  | 1 => .waitTag ⟨arg % 64, Nat.mod_lt _ (by decide)⟩ r since
  | 2 => .waitAll since
  | 3 => .waitCyc target r since
  | 4 => .arrived arg since
  | 5 => .ended
  | _ => .delayed target

/-- The 64 bytes at 0x9C0; their layout is the model's own (log entry 24). -/
def waitBytes (s : State) (t : Nat) : Bytes :=
  let x := s.tile t
  let c := x.core.code
  leBytes c.1 1 ++ leBytes c.2.1 1 ++ leBytes c.2.2.1 2 ++ leBytes x.flags.toNat 1 ++ leBytes 0 1 ++
    leBytes s.feltMode 1 ++ leBytes 0 1 ++ leBytes x.cur 2 ++ leBytes x.pc 2 ++ leBytes c.2.2.2.1 4 ++ leBytes c.2.2.2.2 8 ++
    leBytes s.spanNo 4 ++ (List.range 4).flatMap fun k =>
      let l := tget ({} : Loop) x.loops k
      leBytes (b2n l.active) 1 ++ leBytes l.start 2 ++ leBytes l.stop 2 ++ leBytes l.passes 4

/-- Entries a save keeps of a queue: those of a halted queue, and reads that are held (R167, R169, R336; log entry 157). -/
def savedEnts (s : State) (t q : Nat) : List QEnt := if s.halted t q then s.qEnts t q else (s.qEnts t q).filter fun e => !e.held.isEmpty

/-- The span cycle at which a tile stopped: that of its wait, or of the start of the pre-emption if it stood there. -/
def stopCycle (s : State) (t : Nat) : Nat :=
  let since := match (s.tile t).core with
    | .waitTag _ _ c => c
    | .waitAll c => c
    | .waitCyc _ _ c => c
    | .arrived _ c => c
    | _ => 0
  match s.running with
  | some k => max since (s.slot k).reqCycle
  | none => since

/-- Deadline word of a descriptor position at a save in cycle `now`, of a tile that stopped in cycle `stop` (R169). -/
def deadlineWord (now stop : Nat) (e : QEnt) : Nat :=
  (if e.missed then 2 ^ 31 else 0) + (if e.missed || decide (e.dl ≤ now) then 0 else (e.dl - stop) % 2 ^ 24)

/-- The tiles whose control state is not all zeros: those with code, and those where a reduction context raised a flag
(R71, R169). -/
def savedTiles (s : State) (k : Nat) : List Nat :=
  (((s.slot k).coded ++ (s.tiles.filter fun e => e.2.flags != 0).map (·.1)).foldl (fun (l : Tbl Unit) t => tput l t ()) []).map (·.1)

/-- The cycles that saved descriptors have spent past D so far (R161, R171; log entry 143). -/
def missCycles (s : State) : Nat :=
  s.que.q.foldl (fun n x => (savedEnts s (x.1 / 8) (x.1 % 8)).foldl (fun n e => if e.missed then n + (s.cycle - e.dl) else n) n) 0

/-- The control state of a tile (R169). A ts.bank that is still under way counts in its tag's word as it stands, and no operation
is left that completes it once the banks are ON (R127; log entry 176). -/
def ctlBytes (s : State) (t : Nat) : Bytes :=
  let qs := List.range 8
  let descs := qs.flatMap fun q => padTo ((savedEnts s t q).flatMap fun e => padTo e.d.raw 32) 256
  let halts := qs.flatMap fun q =>
    match tfind s.que.halts (t * 8 + q) with
    | some h => leBytes 1 1 ++ leBytes h.cause 1 ++ leBytes (match (s.qEnts t q).find? (fun e => e.kind == .xfer) with
        | some e => e.next
        | none => 0) 2 ++ leBytes 0 4
    | none => leBytes 0 2 ++ leBytes (match (savedEnts s t q).head? with
        | some e => e.firstOpen
        | none => 0) 2 ++ leBytes 0 4
  let tags := (List.range 64).flatMap fun k =>
    let x := s.tag t k
    leBytes (x.count % 256 + x.kind.toNat * 256 + x.first * 65536) 4
  let g := (List.range 32).flatMap fun r => leBytes (tget 0 (s.tile t).g r).toNat 4
  let dls := qs.flatMap fun q => padTo ((savedEnts s t q).flatMap fun e => leBytes (deadlineWord s.cycle (stopCycle s t) e) 4) 32
  padTo (descs ++ halts ++ tags ++ g ++ padTo (waitBytes s t) 64 ++ dls) 4096

/-! ### Save (R167 step 4, R143) -/

/-- The check a save writes for a sheet: an OPEN sheet is sealed over its contents (R126). -/
def savedCheck (s : State) (n : Nat) (x : SheetSt) : Word :=
  if x.opn then crc32c (mread s.mem.ts (256 * n) 256) else x.crc

/-- Checks of a memory's sheets from an address on, for the sheets that list a byte. -/
def checksOf (m : Mem) : Tbl Word :=
  let ks := (m.map fun e => e.1 / 256).eraseDups
  ks.map fun k => (k, crc32c (mread m (256 * k) 256))

/-- The state of a tile that a pre-emption leaves standing (R168, R251; log entry 105). -/
def Tile.kept (x : Tile) : TileKeep := ⟨x.preds, x.arr0.cfg, x.arr1.cfg, x.couch, x.srTensor, x.srBase⟩

/-- Banks of a tile in OFF, or on the way there: the save turns them ON before it reads the store (R127). -/
def fillOff (s : State) : State :=
  s.tiles.foldl (fun s e => ((List.range 32).filter fun b => match (tget ({} : Bank) e.2.banks b).pwr with
    | .off => true
    | _ => false).foldl (fun s b => fillBank e.1 b s) s) s

/-- The words that a save reads: every tile store with its checks, and the windows of the slot; errors are reported (R408). -/
def saveReads (k : Nat) (s : State) : State :=
  let s := s.eccSweep placeTs 0 (2304 * 0x6000) (fun w => (Src.tile (w / 0x6000), bankOf (w % 0x6000), 8 * (w % 0x6000))) (some k)
  let s := (eccMarks s placeChk 0 (2304 * 768)).foldl (fun s w => sheetCheckRead (w / 768) (w % 768) s) s
  (List.range 4).foldl (fun s l =>
    let w := tget (0, 0) (s.slot k).win l
    s.eccSweep placeRsv ((l * 0x6000000 + w.1 * 0x10000) / 8) (w.2 * 0x2000) (fun w => (Src.levee l, l, 8 * w - l * 0x6000000)) (some k)) s

/-- The save area of slot k receives the tile stores with their checks, the windows and the control states. -/
def saveGrid (k : Nat) (s : State) : State :=
  let s := saveReads k (fillOff s)
  let p := s.slot k
  match p.save with
  | none => s
  | some f =>
    let base := f * 0x40000000
    let win (l : Nat) : Nat × Nat := let w := tget (0, 0) p.win l; (l * 0x6000000 + w.1 * 0x10000, w.2 * 0x10000)
    let rsv := (List.range 4).flatMap fun l => traise (tregion s.mem.rsv (win l).1 (win l).2) (rsvOffset + l * 0x6000000)
    let chk := (List.range 4).flatMap fun l =>
      traise (tregion s.mem.rsvChk ((win l).1 / 256) ((win l).2 / 256)) ((rsvOffset + l * 0x6000000) / 256)
    let ctl := (savedTiles s k).flatMap fun t => memOf (ctlOffset + 0x1000 * t) (ctlBytes s t)
    let sheets := (s.mem.sheets.map fun e => (e.1, savedCheck s e.1 e.2)).filter fun e => decide (e.2 ≠ zeroChk)
    let bytes := traise (s.mem.ts ++ rsv ++ ctl) base
    let checks := traise (sheets ++ chk ++ checksOf ctl) (base / 256)
    let s := { s with mem := { s.mem with
      hbm := Memory.norm (tsplice s.mem.hbm base imemOffset bytes), hbmChk := tsplice s.mem.hbmChk (base / 256) (imemOffset / 256) checks,
      ecc := dropRange (dropRange s.mem.ecc (eccKey placeHbm (base / 128)) (imemOffset / 128)) (eccKey placeDie (base / 128)) (imemOffset / 128) } }
    (s.addPair Reg.QUE_MISS_CYC_LO (missCycles s)).setSlot k { p with savedCycle := s.cycle, savedTick := s.ticks, keep := p.coded.map fun t => (t, (s.tile t).kept) }

/-! ### The grid emptied -/

/-- The grid holds nothing in flight and no program's state; memories outside the tiles stand. -/
def clearGrid (s : State) : State :=
  { s with tiles := [], felt := {}, mesh := {}, que := {}, pulp := [], sched := [], pulpDone := none, pulpLogged := false,
           mem := { s.mem with ts := [], sheets := [], rsvw := [], acc := [], used := [], halves := [], ecc := s.mem.ecc.filter fun e => !tilePlaces.contains (e.1 / 2 ^ 48) },
           clk := { s.clk with hist := [], now := [], droop := [], origin := 0, forced := false } }

/-- Grid zeroing (R437). -/
def gridZero (s : State) : State := (clearGrid s).bump Reg.SEC_ZERO_COUNT 1

/-- Zeroing before a START or RESUME of a slot that another function owns than the one that last issued; the owner is
recorded (R437). -/
def claimGrid (k : Nat) (s : State) : State :=
  let f := ((s.slot k).owner.map (·.val)).getD 0xF
  let s := if s.rf Reg.SEC_GRID 3 0 = f then s else gridZero s
  s.setRf Reg.SEC_GRID 3 0 f

/-! ### Load (R171, R375) -/

/-- An instruction memory from its bytes, by word. -/
def imemOf (m : Mem) : Tbl Word :=
  m.foldl (fun (w : Tbl Word) (e : Nat × Byte) =>
    let x : Word := e.2.setWidth 32
    tput w (e.1 / 4) (tget 0 w (e.1 / 4) ||| (x <<< (8 * (e.1 % 4))))) []

/-- The descriptors of a queue, from the control state; the first of them goes on from its first sheet not transferred
(R171). -/
def restoreQueue (t q : Nat) (c : Mem) (s : State) : State :=
  let n0 := leNat (mread c (0x800 + 8 * q + 2) 2)
  (List.range 8).foldl (fun s n =>
    let raw := mread c (0x100 * q + 0x20 * n) 32
    if raw.all (· == 0) then s
    else
      let w := leNat (mread c (0xA00 + 0x20 * q + 4 * n) 4)
      let d := descOf raw
      let kind := if d.op.toNat = 3 then wvOfRaw raw else QKind.xfer
      let e : QEnt := { uid := s.uid, kind := kind, d := d, dl := s.cycle + fld w 23 0, missed := bitN w 31,
                        skip := if kind = .xfer && (s.qEnts t q).all (fun x => x.kind != .xfer) then n0 else 0 }
      { s with uid := s.uid + 1 }.setEnts t q (s.qEnts t q ++ [e])) s

/-- A tile from its control state and its instruction memory. -/
def tileOf (c : Mem) (imem : Tbl Word) : Tile :=
  let b := mread c 0x9C0 64
  let loops : Tbl Loop := (List.range 4).foldl (fun l k =>
    let o := 28 + 9 * k
    tset {} l k { active := leAt b o 1 == 1, start := leAt b (o + 1) 2, stop := leAt b (o + 3) 2, passes := leAt b (o + 5) 4 }) []
  { g := (List.range 32).foldl (fun g r => tset 0 g r (leWord (mread c (0x940 + 4 * r) 4))) [],
    flags := BitVec.ofNat 8 (leAt b 4 1), loops := loops,
    core := coreOf (leAt b 0 1) (leAt b 1 1) (leAt b 2 2) (leAt b 12 4) (leAt b 16 8),
    cur := leAt b 8 2, pc := leAt b 10 2, imem := imem }

/-- The tiles, queues and tags of slot k from its save area. -/
def loadTile (base t : Nat) (s : State) : State :=
  let c := tregion s.mem.hbm (base + ctlOffset + 0x1000 * t) 0x1000
  let s := s.setTile t { tileOf c (imemOf (tregion s.mem.hbm (base + imemOffset + 0x8000 * t) 0x8000)) with nextAt := s.cycle }
  let s := (List.range 64).foldl (fun s k =>
    let w := leNat (mread c (0x840 + 4 * k) 4)
    s.setTag t k { count := fld w 7 0, kind := BitVec.ofNat 2 (fld w 9 8), first := fld w 31 16 }) s
  (List.range 8).foldl (fun s q => restoreQueue t q c s) s

/-- The sticky flags of tiles without code (R71, R169). -/
def flagTiles (k base : Nat) (s : State) : State :=
  let ctl := tregion s.mem.hbm (base + ctlOffset) 0x900000
  (((ctl.map fun e => e.1 / 0x1000).eraseDups).filter fun t => !(s.slot k).coded.contains t).foldl (fun s t =>
    s.modTile t fun x => { x with flags := BitVec.ofNat 8 (leAt (mread ctl (0x1000 * t + 0x9C0) 64) 4 1) }) s

/-- A tile with that state again. -/
def Tile.restoreKept (x : Tile) (k : TileKeep) : Tile :=
  { x with preds := k.preds, arr0 := { x.arr0 with cfg := k.cfg0 }, arr1 := { x.arr1 with cfg := k.cfg1 }, couch := k.couch,
           srTensor := k.srTensor, srBase := k.srBase }

/-- The tiles of slot k hold again, after a resume, what the pre-emption left standing. -/
def loadKept (k : Nat) (s : State) : State :=
  (s.slot k).keep.foldl (fun s e => s.modTile e.1 fun x => x.restoreKept e.2) s

/-- Numbers of the sheets that a region of HBM lists bytes or checks of, each once, from its start. -/
def listedSheets (s : State) (base n : Nat) : List Nat :=
  ((tregion s.mem.hbm base n).map (fun e : Nat × Byte => e.1 / 256) ++
    (tregion s.mem.hbmChk (base / 256) (n / 256)).map fun e : Nat × Word => e.1).eraseDups

/-- A sheet that comes into a tile store is verified on arrival, in the way of every whole sheet (R126, R406). -/
def loadVerify (k base n : Nat) (s : State) : State :=
  if crc32c (s.hbmSheet (base + 256 * n)) = s.hbmCheck (base + 256 * n) then s
  else s.checkFail (Src.tile (n / 768)) placeTs 0 (256 * (n % 768)) (some k)

/-- Tile stores with their checks, instruction memories and control states of slot k; every array and bank is ON, and
what is not saved reads as zero (R168, R171, R375). HBM is read, each sheet is verified at its tile store, and the code and the
state of a tile come to it by a multicast of device firmware for that one tile (R187, R407; log entry 100). -/
def loadGrid (k : Nat) (s : State) : State :=
  let p := s.slot k
  match p.save with
  | none => s
  | some f =>
    let base := f * 0x40000000
    let s := (listedSheets s base rsvOffset).foldl (fun s n => loadVerify k base n s) (hbmSpan base (imemOffset + 0x8000 * 2304) (clearGrid s))
    let sheets := (tregion s.mem.hbmChk (base / 256) (rsvOffset / 256)).map fun e => (e.1, ({ crc := e.2 } : SheetSt))
    let s := { s with mem := { s.mem with ts := tregion s.mem.hbm base rsvOffset, sheets := sheets } }
    flagTiles k base (p.coded.foldl (fun s t => mcDeliver (multicast (t / 48) (t / 48) (t % 48) (t % 48) s) (loadTile base) s) s)

/-- The reservoir windows of slot k from its save area (R171): levee-local fills, which the controllers verify (R406). -/
def loadWindows (k : Nat) (s : State) : State :=
  let p := s.slot k
  match p.save with
  | none => s
  | some f =>
    let base := f * 0x40000000 + rsvOffset
    (List.range 4).foldl (fun s l =>
      let w := tget (0, 0) p.win l
      let a := l * 0x6000000 + w.1 * 0x10000
      let n := w.2 * 0x10000
      let from' := base + l * 0x6000000
      let s := (listedSheets s from' n).foldl (fun s m => hbmVerify (from' + 256 * m) s) (hbmSpan from' n (zeroRsv l (w.1 * 0x10000) n s))
      { s with mem := { s.mem with
        rsv := tsplice s.mem.rsv a n (traise (tregion s.mem.hbm (base + l * 0x6000000) n) a),
        rsvChk := tsplice s.mem.rsvChk (a / 256) (n / 256) (traise (tregion s.mem.hbmChk ((base + l * 0x6000000) / 256) (n / 256)) (a / 256)) } }) s

/-! ### Span declarations (R227, R251, R259) -/

/-- The tile stores of a polder zero-filled, every sheet SEALED (R227). -/
def zeroPolder (k : Nat) (s : State) : State :=
  let keep (t : Nat) : Bool := polderOf t != k
  { s with mem := { s.mem with ts := s.mem.ts.filter (fun e => keep (e.1 / tsSize)), sheets := s.mem.sheets.filter (fun e => keep (e.1 / 768)),
                               ecc := s.mem.ecc.filter fun e =>
                                 !(e.1 / 2 ^ 48 == placeTs && !keep (e.1 % 2 ^ 48 / 0x6000)) && !(e.1 / 2 ^ 48 == placeChk && !keep (e.1 % 2 ^ 48 / 768)) } }

/-- The states of the polders for a span: the store of a polder that becomes SHUT is lost, and it is zero-filled when
it leaves that state. -/
def setPolders (w : Word) (s : State) : State :=
  let s := (List.range 16).foldl (fun s k => if wfld w (2 * k + 1) (2 * k) = 2 ∧ s.polder k ≠ 2 then zeroPolder k s else s) s
  polderStates w s

/-- The reduction contexts of a span (R184, R260). -/
def declareCtx (p : Slot) (r : SpanRec) (s : State) : State :=
  ((p.rctx.drop r.rctx).take r.rcount).foldl (fun s c =>
    s.setCtx (rcF c 11 0) (rcF c 41 39) { decl := true, ina := rcF c 45 42, inb := rcF c 49 46, out := rcF c 53 50, line := rcF c 63 54 }) s

/-- Span record n of slot k takes effect. -/
def applyRecord (k n : Nat) (s : State) : State :=
  let p := s.slot k
  let r := p.spans.getD n {}
  let s := s.setSlot k { p with spanRec := n }
  declareCtx p r ((setPolders r.polder s).setRf Reg.FELT_STATUS 1 0 r.mode.toNat)

/-- Reams at the start of a span of slot k: IDLE, then armed where the span number says so; contributions that came
early wait for the next armed span (R327, R328). -/
def armReams (k : Nat) (s : State) : State :=
  (s.redSlot k).reams.foldl (fun s e =>
    match s.ream? k e.1 with
    | none => s
    | some r =>
      if (s.slot k).span.toNat % max 1 r.period = r.phase then
        let r : Ream := { raw := r.raw, slices := r.next, st := .fill, arrived := ((r.early.filterMap (gatherSheet s k r)).eraseDups).reverse }
        reamAdvance (s.setReam k e.1 r) k e.1
      else s.setReam k e.1 { raw := r.raw, next := r.next }) s

/-- Every ream of slot k is IDLE with its counts at 0, at a boundary at which the program ends (R327; log entry 156). -/
def idleReams (k : Nat) (s : State) : State :=
  (s.redSlot k).reams.foldl (fun s e =>
    match s.ream? k e.1 with
    | none => s
    | some r => s.setReam k e.1 { raw := r.raw }) s

end Sys2Proof.Machine
end

