-- ==== Sys2Proof/Machine/Power.lean ====
section
/-!
DEFINITION. Power and thermal control: the cap (R387), the level-load governor (R388–R390), rail limits (R386), idle
states (R392, R393), derating and trips (R396, R397) and the sensor mirror (R399).
-/
namespace Sys2Proof.Machine

/-! ### Register values in effect (R400) -/

def State.effReg (s : State) (n : RegNo) : Word := tget (Reg.reset n) s.pwr.eff n
def State.effF (s : State) (n : RegNo) (hi lo : Nat) : Nat := wfld (s.effReg n) hi lo

/-- The registers of the power and thermal block that a host can write. -/
def pwrRegs : List RegNo := [Reg.PWR_CAP, Reg.PWR_IDLE, Reg.LL_CTRL, Reg.LL_BAND, Reg.THM_LIMITS] ++ (List.range 5).map Reg.railLim

/-- Written values take effect. -/
def takeEffect (s : State) : State :=
  { s with pwr := { s.pwr with eff := pwrRegs.foldl (fun t n => tset (Reg.reset n) t n (s.reg n)) s.pwr.eff } }

/-! ### Power cap (R387) -/

/-- Clock of an operating point in units of 50 MHz (R224). -/
def opClock (op : Nat) : Nat := 16 - op

/-- POWER_CAP_ACTIVE (R403). -/
def capLog (why : Nat) (s : State) : State :=
  s.log1 Ev.POWER_CAP_ACTIVE (Src.node 0)
    (leBytes (s.rf Reg.PWR_AVG 15 0) 2 ++ leBytes (s.effF Reg.PWR_CAP 15 0) 2 ++ leBytes (s.rf Reg.CLK_OPREQ 15 12) 1 ++
      leBytes why 1 ++ leBytes 0 2 ++ leBytes s.spanNo 4)

/-- The cap decision. OQ_POWER moves by one step at most, and never towards the faster side when the cap is exceeded
(log entry 26). -/
def powerCapDecide (s : State) : State :=
  let pa := s.rf Reg.PWR_AVG 15 0
  let cap := s.effF Reg.PWR_CAP 15 0
  let oq := s.rf Reg.CLK_OPREQ 15 12
  let now := s.rf Reg.CLK_STATUS 31 28
  if cap < pa then
    let s := setRequest 12 (max oq (min (oq + 1) (min 8 (now + 1)))) s
    capLog 0 ((s.setBits Reg.PWR_STATUS 2).bump Reg.PWR_CAP_COUNT 1)
  else if pa * opClock (now - 1) ≤ cap * opClock now then setRequest 12 (oq - 1) s
  else s

/-- POWER_CAP_TICK: with no program running. -/
def execPowerCapTick (s : State) : Res := .next (s.firmware fun s => if s.running.isSome then s else powerCapDecide s)

/-! ### Rail limits (R386) -/

/-- RAIL_LIMIT: an episode at a limit. Rails 0 and 1 stretch the nodes they feed; on rail 2 idle slots take time only. -/
def railLimit (rail : Nat) (s : State) : State :=
  if 2 < rail then s
  else
    let s := s.setBits Reg.PWR_STATUS 4
    let s := if s.pwr.railLogged then s else capLog (rail + 1) { s with pwr := { s.pwr with railLogged := true } }
    match rail with
    | 0 => (List.range 16).foldl (fun s x => droopDetect x s) s
    | 1 => [16, 17, 18, 19].foldl (fun s x => droopDetect x s) s
    | _ => s

def execRailLimit (rail : Fin 5) (s : State) : Res := .next (railLimit rail.val s)

/-! ### Idle states (R392, R393) -/

/-- Idle state: 0 none, 1 I1, 2 I2, 3 I3 (PW_IDLE). -/
def State.idle (s : State) : Nat := s.rf Reg.PWR_STATUS 31 30

/-- A slot is RUNNING, STOPPING or RESTORING. -/
def State.gridBusy (s : State) : Bool :=
  s.slots.any fun e => e.2.state == .running || e.2.state == .stopping || e.2.state == .restoring

/-- The state the device chooses: the deepest that the exit latency and the extra conditions allow. -/
def idleChoice (s : State) : Nat :=
  let tol := if s.host.d3 then 0xFFFFFF else s.effF Reg.PWR_IDLE 23 0
  if 4000 ≤ tol ∧ ¬ s.slots.any (fun e => e.2.state == .admitted) then 3
  else if 60 ≤ tol then 2
  else if 3 ≤ tol then 1
  else 0

/-- Polder states of an idle state (R227). -/
def idlePolders (n : Nat) : Word :=
  match n with
  | 0 => 0
  | 1 => 0x55555555
  | 2 => 0xFFFFFFFF
  | _ => 0xAAAAAAAA

/-- Contents lost in I3: tile stores are zero-filled when polders leave SHUT (R227), reservoirs when they are powered
again (log entry 27). -/
def loseI3 (s : State) : State :=
  let s := { s with mem := { s.mem with ts := [], sheets := [], ecc := dropRange s.mem.ecc (eccKey placeTs 0) (2 ^ 48) } }
  (List.range 4).foldl (fun s l => zeroRsv l 0 0x6000000 s) s

/-- The device changes its idle state. -/
def toIdle (n : Nat) (s : State) : State :=
  let s := if n = 3 then loseI3 s else s
  let s := if s.idle = n then s else s.pldmEvent 72 (BitVec.ofNat 32 n)
  polderStates (idlePolders n) (s.setRf Reg.PWR_STATUS 31 30 n)

/-- Exit to no idle state. -/
def idleExit (s : State) : State := if s.idle = 0 then s else toIdle 0 s

/-- A copy or an aperture access needs HBM, which I3 keeps in self-refresh (R393). -/
def hbmWake (s : State) : State := if s.idle = 3 then toIdle 0 s else s

/-- IDLE_ENTRY: 1 ms has passed with the conditions holding; a device in an idle state moves on to a deeper one that has
become the deepest allowed (R392, R393). -/
def idleEntry (s : State) : State :=
  if s.stage ≠ 8 ∧ s.effF Reg.LL_CTRL 31 31 = 0 ∧ ¬ s.gridBusy ∧ ¬ s.host.accepted.any (·.started) then
    if s.idle < idleChoice s then toIdle (idleChoice s) s else s
  else s

def execIdleEntry (s : State) : Res := .next (idleEntry s)

/-- The idle state is left when it no longer fits. -/
def idleFits (s : State) : State :=
  if s.idle = 0 then s
  else if s.effF Reg.LL_CTRL 31 31 = 1 ∨ idleChoice s < s.idle then toIdle 0 s
  else s

/-- D3_TRANSITION: in D3hot the deepest state is used whatever IT_TOL_US holds; a device in a shallower idle state
moves to it, and one that leaves D3hot leaves a state that no longer fits (log entry 28). -/
def d3Transition (enter : Bool) (s : State) : State :=
  let s := { s with host := { s.host with d3 := enter } }
  if enter then (if s.idle ≠ 0 ∧ s.idle < idleChoice s then toIdle (idleChoice s) s else s) else idleFits s

def execD3Transition (enter : Bool) (s : State) : Res := .next (d3Transition enter s)

/-! ### The level-load governor (R388–R390) -/

def imax (a b : Int) : Int := if a < b then b else a
def imin (a b : Int) : Int := if a < b then a else b

/-- The target of step 2, in tenths of a watt. -/
def llTarget (w g f ramp ceff : Int) : Int :=
  imin ceff (if g ≤ w then w else if f < g then imax f (g - ramp) else imin f (g + ramp))

/-- OQ_THERMAL is slower than the other requests. -/
def thermalLeads (s : State) : Bool :=
  let t := s.rf Reg.CLK_OPREQ 11 8
  decide (max (s.rf Reg.CLK_OPREQ 3 0) (max (s.rf Reg.CLK_OPREQ 7 4) (s.rf Reg.CLK_OPREQ 15 12)) < t)

/-- Arrays of a tile that can take no ballast: one that is not powered on, or has a stream (R44, R389). -/
def Tile.noBallast (x : Tile) : Nat := ([x.arr0, x.arr1].filter fun a => a.pwr != .on || !a.streams.isEmpty).length

/-- Stream-free arrays that are powered on in ACTIVE polders, of 144 tiles each: all 4,608 with no program (R389). -/
def freeArrays (s : State) : Nat :=
  288 * ((List.range 16).filter fun k => s.polder k == 0).length -
    ((s.tiles.filter fun e => s.polder (polderOf e.1) == 0).map fun e => e.2.noBallast).foldl (· + ·) 0

/-- The ballast available, in tenths of a watt: 0.24 W for each such array at OP0, scaled with the clock (R389; log entry 180). -/
def ballastAvail (s : State) : Nat := 24 * freeArrays s * opClock (s.rf Reg.CLK_STATUS 31 28) / 160

/-- Share of the stream-free cycles that run ballast, in 256ths (R389; log entry 29). -/
def beta (b avail : Nat) : Nat := if avail = 0 then 0 else min 255 (256 * b / avail)

/-- BALLAST_ON (R403). -/
def ballastLog (s : State) : State :=
  s.log1 Ev.BALLAST_ON (Src.node 0)
    (leBytes (s.effF Reg.LL_BAND 11 0) 2 ++ leBytes (s.effF Reg.LL_BAND 27 16) 2 ++ leBytes (s.rf Reg.LL_STATUS 11 0) 2 ++
      leBytes (if s.pwr.preload then 2 else if s.running.isSome then 0 else 1) 1 ++ leBytes 0 1 ++ leBytes s.spanNo 4)

/-- The ballast of the next tick, in tenths of a watt, shown in its registers. -/
def setBallast (b avail : Nat) (s : State) : State :=
  let was := s.pwr.ballast
  let s := { s with pwr := { s.pwr with ballast := b } }
  let s := s.setReg Reg.LL_STATUS (BitVec.ofNat 32 (beta b avail * 2 ^ 24 + min 4095 (b / 10)))
  let s := s.setRf Reg.PWR_STATUS 29 29 (if b = 0 then 0 else 1)
  if was = 0 ∧ b ≠ 0 then ballastLog s else s

/-- Energy of the ballast that ran in the tick just ended: 0.1 W for 100 µs is 10 µJ. -/
def addEnergy (s : State) : State :=
  let e := s.pwr.energy + s.pwr.ballast
  ({ s with pwr := { s.pwr with energy := e % 100000 } }).addPair Reg.LL_BALLAST_J_LO (e / 100000)

/-- Steps 1–3 of the governor, with the precedence and the breach of R390. While it prepares for a START or RESUME it raises
the draw at LL_RAMP instead, until P reaches Ceff or the ballast is what is available; where R390 holds it at 0 it is ready
at once (R391; log entry 124). -/
def governor (m : PowerSample) (fresh : Bool) (s : State) : State :=
  let p : Int := 10 * m.watts.toNat
  let g := if fresh then p else s.pwr.draw
  let w := p - s.pwr.ballast
  let ramp : Int := s.effF Reg.LL_CTRL 10 0
  let ceff : Int := 10 * min (s.effF Reg.LL_BAND 27 16) (s.effF Reg.PWR_CAP 15 0)
  let target := if s.pwr.preload then imin ceff (g + ramp) else llTarget w g (10 * s.effF Reg.LL_BAND 11 0) ramp ceff
  let want := (target - w).toNat
  let hold := thermalLeads s || m.atLimit || decide (ceff < p)
  let avail := ballastAvail s
  let b := if hold then 0 else min want avail
  let s := if b < want ∧ w + b < g - ramp then (s.setBits Reg.PWR_STATUS 8).bump Reg.LL_BREACH_COUNT 1 else s
  let s := setBallast b avail s
  let ready := hold || decide (ceff ≤ p) || b == avail
  { s with pwr := { s.pwr with draw := w + b, preload := s.pwr.preload && !ready } }

/-- Thresholds that a reading crosses: an upper one is reached by a reading at or above it, a lower one by a reading at or below it
(log entry 45). -/
def crossed (up lo : List Int) (old new : Int) : Nat :=
  (up.filter fun t => decide (t ≤ old) != decide (t ≤ new)).length + (lo.filter fun t => decide (old ≤ t) != decide (new ≤ t)).length

/-- A reading crosses thresholds of its PLDM sensor: an event for each (R466, R468). -/
def crossing (id : Nat) (up lo : List Int) (old new : Int) (w : Word) (s : State) : State :=
  (List.range (crossed up lo old new)).foldl (fun s _ => s.pldmEvent id w) s

/-- Crossings of the power sensors: 50, 51 and 53–57. -/
def powerEvents (m : PowerSample) (s : State) : State :=
  let i (n : Nat) : Int := n
  let s := crossing 50 [i (s.effF Reg.PWR_CAP 15 0), 2400] [] (s.rf Reg.PWR_IN 15 0) m.watts.toNat (m.watts.setWidth 32) s
  let s := crossing 51 [580, 620] [420, 380] (s.rf Reg.PWR_IN 31 16) m.deciVolts.toNat (m.deciVolts.setWidth 32) s
  (List.range 5).foldl (fun s k =>
    let a := m.railA.getD k 0
    crossing (53 + k) [i (s.effF (Reg.railLim k) 15 0), i (Reg.railMax k)] [] (s.rf (Reg.railMon k) 15 0) a.toNat (a.setWidth 32) s) s

/-- PA_W: the mean over the ticks of the last CP_WIN ms, or over those there have been, rounded down (R387; log entry 160). -/
def meanPower (m : PowerSample) (s : State) : State :=
  let h := (m.watts.toNat :: s.pwr.hist).take (10 * s.effF Reg.PWR_CAP 31 16)
  { s with pwr := { s.pwr with hist := h } }.setReg Reg.PWR_AVG (BitVec.ofNat 32 (h.foldl (· + ·) 0 / h.length))

/-- Measurements of a tick (R400). -/
def measure (m : PowerSample) (s : State) : State :=
  let s := powerEvents m s
  let s := s.setReg Reg.PWR_IN (BitVec.ofNat 32 (m.deciVolts.toNat * 65536 + m.watts.toNat))
  let s := meanPower m s
  (List.range 5).foldl (fun s k =>
    s.setReg (Reg.railMon k) (BitVec.ofNat 32 ((m.railMv.getD k 0).toNat * 65536 + (m.railA.getD k 0).toNat))) s

/-- The cap windows in which a rail at its limit is logged once follow one another (log entry 30). -/
def windowTick (s : State) : State :=
  let n := s.pwr.winTick + 1
  if 10 * s.effF Reg.PWR_CAP 31 16 ≤ n then { s with pwr := { s.pwr with winTick := 0, railLogged := false } }
  else { s with pwr := { s.pwr with winTick := n } }

/-- The idle state leaves the parts that a task needs powered: tile stores and nodes are down in I2 and I3, reservoirs and HBM in
I3 (R392, R415). -/
def powered (s : State) (k : Nat) : Bool :=
  match k with
  | 1 => decide (s.idle < 3)
  | 2 => decide (s.idle < 3)
  | 4 => true
  | _ => decide (s.idle < 2)

/-- Background tasks age, but not while an idle state powers down the parts they need (R415). -/
def ageTasks (s : State) : State :=
  { s with ras := { s.ras with age := (List.range 6).foldl (fun t k => if powered s k then tmod 0 t k (· + 1) else t) s.ras.age } }

/-- The governor's work every 100 µs. -/
def governorTick (m : PowerSample) (s : State) : State :=
  let was := s.effF Reg.LL_CTRL 31 31 = 1
  let s := ageTasks (windowTick (measure m (takeEffect (addEnergy s))))
  let s := idleFits s
  if s.effF Reg.LL_CTRL 31 31 = 1 then governor m (¬ was) s else setBallast 0 0 { s with pwr := { s.pwr with preload := false } }

/-! ### Temperature (R396–R399) -/

/-- Derate threshold of a sensor in 1/64 °C, if it has one. -/
def derateAt (s : State) (n : Nat) : Option Int :=
  let l (hi lo : Nat) : Int := 64 * s.effF Reg.THM_LIMITS hi lo
  if n < 16 then some (l 7 0) else if n < 20 then some (l 15 8) else if n < 32 then some (l 23 16)
  else if n < 37 then some (64 * 110) else none

/-- Trip and shutdown thresholds in 1/64 °C. -/
def tripAt (n : Nat) : Option (Int × Int) :=
  if n < 16 then some (64 * 115, 64 * 120) else if n < 20 then some (64 * 110, 64 * 115)
  else if n < 32 then some (64 * 100, 64 * 105) else if n < 37 then some (64 * 125, 64 * 130) else none

def State.temp (s : State) (n : Nat) : BitVec 16 := tget 0x8000 s.pwr.temps n

/-! ### Refresh (R160) -/

/-- HBM_REFRESH_SWITCH: a stack goes to 2× refresh when a die of it reads above 85 °C, and back when every die reads below
82 °C, which QS_HOT shows; the sensor of the stack stands for its dies (log entry 148). -/
def refreshSwitch (k : Nat) (hot : Bool) (s : State) : State :=
  let t := (s.temp (20 + k)).toInt
  if (if hot then decide (64 * 85 < t) else decide (t < 64 * 82)) then s.setRf Reg.QUE_STATUS (16 + k) (16 + k) (b2n hot) else s

def execHbmRefreshSwitch (k : Fin 12) (hot : Bool) (s : State) : Res := .next (refreshSwitch k.val hot s)

/-- Sensors with thresholds. -/
def limited : List Nat := List.range 37

/-- Margin of a sensor to its derate threshold, in 1/64 °C. -/
def marginOf (s : State) (n : Nat) (t : BitVec 16) : Int := (derateAt s n).getD 0 - t.toInt

/-- The sensor of least margin among some, the lowest of equals, with its reading. -/
def hottest (s : State) : List (Nat × BitVec 16) → Option (Nat × BitVec 16)
  | [] => none
  | x :: r =>
    match hottest s r with
    | none => some x
    | some y => if marginOf s y.1 y.2 < marginOf s x.1 x.2 then some y else some x

/-- The inlet is above 65 °C. -/
def inletHot (s : State) : Bool := decide (64 * 65 < (s.temp 37).toInt)

/-- TH_HOT and TH_MARGIN. -/
def showMargin (s : State) : State :=
  match hottest s (limited.map fun n => (n, s.temp n)) with
  | none => s
  | some x =>
    let m := marginOf s x.1 x.2
    (s.setRf Reg.THM_STATUS 31 26 x.1).setRf Reg.THM_STATUS 25 18 (min 255 (m.toNat / 64))

/-- Upper thresholds of a temperature sensor on the management bus (R466). -/
def tempLimits (s : State) (n : Nat) : List Int :=
  if n = 37 then [64 * 60, 64 * 65]
  else
    match derateAt s n, tripAt n with
    | some d, some t => [d, t.1, t.2]
    | _, _ => []

/-- SENSOR_UPDATE: the mirror with the offsets applied; readings above a threshold are noted. -/
def sensorUpdate (raw : List (BitVec 16)) (s : State) : State :=
  let temps := (raw.zipIdx).foldl (fun (t : Tbl (BitVec 16)) e => if e.2 < 41 then tset 0x8000 t e.2 (e.1 + tget 0 s.pwr.offsets e.2) else t) s.pwr.temps
  let s := (List.range 41).foldl (fun s n =>
    let v := tget 0x8000 temps n
    crossing (n + 1) (tempLimits s n) [] (s.temp n).toInt v.toInt (v.setWidth 32) s) s
  let s := { s with pwr := { s.pwr with temps := temps } }
  let hot := limited.filter fun n => decide (marginOf s n (s.temp n) < 0)
  let overTemp := hot.foldl (fun (t : Tbl (BitVec 16)) n =>
    if (tget 0x8000 t n).toInt < (s.temp n).toInt then tset 0x8000 t n (s.temp n) else t) s.pwr.overTemp
  let cool := limited.all fun n => decide (64 * 5 ≤ marginOf s n (s.temp n))
  let below := limited.all fun n => decide (0 < marginOf s n (s.temp n))
  let s := { s with pwr := { s.pwr with overTemp := overTemp, coolMs := if cool then s.pwr.coolMs + 1 else 0, tripped := s.pwr.tripped && !below } }
  let s := if inletHot s then s.setBits Reg.PWR_STATUS 1 else s
  showMargin s

def execSensorUpdate (raw : List (BitVec 16)) (s : State) : Res := .next (s.firmware (sensorUpdate raw))

/-- THERMAL_DERATE (R403). -/
def derateLog (x : Nat × BitVec 16) (s : State) : State :=
  s.log1 Ev.THERMAL_DERATE (Src.sensor x.1)
    (leBytes x.1 1 ++ leBytes (s.rf Reg.CLK_OPREQ 11 8) 1 ++ leBytes x.2.toNat 2 ++ leBytes (b2n (inletHot s)) 1 ++ leBytes 0 3 ++ leBytes s.spanNo 4)

/-- The update of OQ_THERMAL: one operating point at most. -/
def thermalDecide (s : State) : State :=
  let oq := s.rf Reg.CLK_OPREQ 11 8
  let worst := hottest s s.pwr.overTemp
  let s := { s with pwr := { s.pwr with overTemp := [] } }
  match worst with
  | some x =>
    if oq < 8 then
      let s := setRequest 8 (oq + 1) { s with pwr := { s.pwr with coolMs := 0 } }
      derateLog x ((s.setBits Reg.THM_STATUS 1).bump Reg.THM_DERATE_COUNT 1)
    else s
  | none =>
    if 1000 ≤ s.pwr.coolMs ∧ 0 < oq then setRequest 8 (oq - 1) { s with pwr := { s.pwr with coolMs := 0 } } else s

/-- THERMAL_TICK: with no program running. -/
def execThermalTick (s : State) : Res := .next (s.firmware fun s => if s.running.isSome then s else thermalDecide s)

/-- THERMAL_TRIP: fatal for the program on the grid; OQ_THERMAL becomes OP8 (R397). The record names the reading of the
mirror, or the threshold where the mirror has not followed yet. -/
def thermalTrip (n : Nat) (s : State) : State :=
  match tripAt n with
  | none => s
  | some lim =>
    let t : BitVec 16 := if (s.temp n).toInt < lim.1 then BitVec.ofInt 16 lim.1 else s.temp n
    let s := { s with pwr := { s.pwr with tripped := true, coolMs := 0 } }
    let s := s.logStop Ev.THERMAL_TRIP (Src.sensor n)
      (leBytes n 1 ++ leBytes 0 1 ++ leBytes t.toNat 2 ++ leBytes s.cycle 4 ++ leBytes s.spanNo 4) s.running
    setRequest 8 8 (s.setBits Reg.THM_STATUS 2)

def execThermalTrip (n : Fin 64) (s : State) : Res := .next (thermalTrip n.val s)

end Sys2Proof.Machine
end

