-- ==== Sys2Proof/Machine/HostQueue.lean ====
section
/-!
DEFINITION. Queue pairs, doorbells, admission credits, the fetch of submission entries, and completion and event entries
(R348–R355, R360).
-/
namespace Sys2Proof.Machine

/-- The PCIe link has trained: Gen6 ×4, or down to a lower generation and width (R344; log entry 158). -/
def linkTrained (s : State) : State :=
  let x := Config.pcieLink s.freeN
  { s with freeN := s.freeN + 1,
           host := { s.host with link := true, pcie := { s.host.pcie with speed := x.1.val + 1, width := 2 ^ x.2.val } } }

/-- A read of host memory failed for a command of function f: its AER status tells of it (R344, R359; log entry 158). -/
def aerError (f haddr : Nat) (s : State) : State :=
  { s with host := { s.host with pcie := { s.host.pcie with aerU := tmod 0 s.host.pcie.aerU f (· ||| Config.dmaError haddr) } } }

/-! ### Queue pairs (R349) -/

def State.hq (s : State) (f q : Nat) : HostQ := tget {} s.host.q (f * 16 + q)
def State.setHq (s : State) (f q : Nat) (x : HostQ) : State :=
  { s with host := { s.host with q := tset {} s.host.q (f * 16 + q) x } }

def State.sqDepth (s : State) (f q : Nat) : Nat := 2 ^ s.rf (Reg.queue f q 0x10) 3 0
def State.cqDepth (s : State) (f q : Nat) : Nat := 2 ^ s.rf (Reg.queue f q 0x10) 7 4
def State.sqBase (s : State) (f q : Nat) : Nat := (s.reg (Reg.queue f q 0)).toNat + 2 ^ 32 * (s.reg (Reg.queue f q 4)).toNat
def State.cqBase (s : State) (f q : Nat) : Nat := (s.reg (Reg.queue f q 8)).toNat + 2 ^ 32 * (s.reg (Reg.queue f q 0xC)).toNat

/-- Quota of a function after reset (R365). -/
def FnQuota.init (f : Nat) : FnQuota := if f = 0 then ⟨0x3C0, 16, 64⟩ else ⟨0, 0, 32⟩

def State.quotaOf (s : State) (f : Nat) : FnQuota := tget (FnQuota.init f) s.host.quota f

/-- BS_STAGE is 7, READY (R372). -/
def State.isReady (s : State) : Bool := s.stage == 7

/-- Free admission credits: none before READY (R355, R373). -/
def State.freeCredits (s : State) (f : Nat) : Nat :=
  if s.isReady then (s.quotaOf f).credits - tget 0 s.host.used f else 0

def State.holdCredit (s : State) (f : Nat) : State := { s with host := { s.host with used := tmod 0 s.host.used f (· + 1) } }
def State.dropCredit (s : State) (f : Nat) : State := { s with host := { s.host with used := tmod 0 s.host.used f (· - 1) } }

/-! ### Completions and events (R354, R360) -/

/-- An entry becomes ready; in a disabled queue it is discarded, and its credit is free (R350, R355). -/
def enqueue (x : Compl) (s : State) : State :=
  if (s.hq x.fn.val x.q.val).enabled then { s with host := { s.host with waiting := s.host.waiting ++ [x] } }
  else if x.credit then s.dropCredit x.fn.val else s

/-- QT_EN falls when the last command accepted from a disabled queue has ended (R350). -/
def settleQueue (f q : Nat) (s : State) : State :=
  let x := s.hq f q
  if !x.enabled && x.active && !(s.host.accepted.any fun a => a.c.fn.val == f && a.c.q.val == q) then
    s.setHq f q { x with active := false }
  else s

/-- The accepted entry that ends as a command: the first of those equal to it that has started, where one has. -/
def endsAs (l : List Accepted) (c : HostCmd) (a : Accepted) : Bool := a.c == c && (a.started || !l.any fun b => b.c == c && b.started)

/-- A command ends with a status (R354, R359); of equal entries one ends. -/
def finishCmd (c : HostCmd) (status slot i0 i1 i2 : Nat) (s : State) : State :=
  let a := s.host.accepted.find? (endsAs s.host.accepted c)
  let s := { s with host := { s.host with accepted := s.host.accepted.eraseP (endsAs s.host.accepted c),
                                          waits := s.host.waits.eraseP fun w => w.2 == c } }
  let s := if status = 5 then aerError c.fn.val c.haddr.toNat (s.setBits (Reg.fn c.fn.val 0) 2) else s
  let x : Compl := ⟨c.fn, c.q, c.cid, 0, BitVec.ofNat 8 slot, status, i0, i1, i2, (a.map (·.credit)).getD false, c.op == 1 && status == 0⟩
  let s := match a with
    | some a => if a.gone then (if a.credit then s.dropCredit c.fn.val else s) else enqueue x s
    | none => enqueue x s
  settleQueue c.fn.val c.q.val s

/-- The queue an event of a function goes to: that of the START, or queue 0, if enabled (R360). -/
def eventQueue (s : State) (f startQ : Nat) : Option Nat :=
  if (s.hq f startQ).enabled then some startQ else if (s.hq f 0).enabled then some 0 else none

def q16 (q : Nat) : Fin 16 := ⟨q % 16, Nat.mod_lt _ (by decide)⟩

/-- An event entry placed in its queue, or held for its slot (R360, R364). -/
def placeEvent (k startQ : Nat) (x : Compl) (s : State) : State :=
  match eventQueue s x.fn.val startQ with
  | some q => { s with host := { s.host with waiting := s.host.waiting ++ [{ x with q := q16 q }] } }
  | none => { s with host := { s.host with held := tput s.host.held k x } }

/-- A program event of slot k: its code, the logbook code of the cause, and the number of that record. The entry
waits for the number while the record stands in the staging buffer of a clear, where it has a mark (R360, R452). -/
def postEvent (k ev : Nat) (cause : BitVec 16) (seq : Option Nat) (mark : Nat) (s : State) : State :=
  let p := s.slot k
  match p.owner with
  | some f =>
    let x : Compl := ⟨f, q16 p.startQ, p.startCid, 1, BitVec.ofNat 8 k, 0, ev + 2 ^ 32 * p.span.toNat, cause.toNat, seq.getD 0, false, false⟩
    match seq with
    | some _ => placeEvent k p.startQ x s
    | none => { s with host := { s.host with numbering := s.host.numbering ++ [(mark, p.startQ, x)] } }
  | none => s

/-- The entry written round the ring (R354): 32 bytes. -/
def complBytes (x : Compl) (sqHead : Nat) (phase : Bool) : Bytes :=
  leBytes x.cid.toNat 2 ++ leBytes x.ty 1 ++ leBytes x.slot.toNat 1 ++ leBytes sqHead 2 ++ leBytes x.status 1 ++ leBytes (b2n phase) 1 ++
    leBytes x.info0 8 ++ leBytes x.info1 8 ++ leBytes x.info2 8

/-- COMPLETION_WRITE: the oldest waiting entry of the queue, once its ring has room. The vector fires with the first entry
of a batch: entries of one queue written in one cycle with no other queue's between them (R354, R355, R348; log entry 159). -/
def completionWrite (f q : Nat) (s : State) : State :=
  match s.host.waiting.find? fun x => x.fn.val == f && x.q.val == q with
  | none => s
  | some x =>
    let y := s.hq f q
    let d := s.cqDepth f q
    if y.enabled ∧ (y.cqTail + d - y.cqHead) % d < d - 1 then
      let s := { s with host := { s.host with waiting := s.host.waiting.erase x,
                                              mem := mwrite s.host.mem (s.cqBase f q + 32 * y.cqTail) (complBytes x y.sqHead y.phase) } }
      let wrap := y.cqTail + 1 = d
      let s := s.setHq f q { y with cqTail := if wrap then 0 else y.cqTail + 1, phase := if wrap then !y.phase else y.phase }
      let s := if x.credit then s.dropCredit f else s
      let s := if s.host.batch = some (f * 16 + q) then s else s.fire f q
      { s with host := { s.host with batch := some (f * 16 + q) } }
    else s

def execCompletionWrite (f : FnNo) (q : Fin 16) (s : State) : Res := .next (completionWrite f.val q.val s)

/-! ### Doorbells (R351, R352) -/

/-- A refused doorbell write (R352, R367): 0 submission tail, 1 completion head; the reason; the index of the device. -/
def refuseDoorbell (f q kind why v h : Nat) (s : State) : State :=
  let s := ((s.setBits (Reg.fn f 0) 4).bump (Reg.fn f 4) 1).fire f 16
  s.log1 Ev.DOORBELL_REFUSED (Src.fn f)
    (leBytes f 1 ++ leBytes q 1 ++ leBytes kind 1 ++ leBytes why 1 ++ leBytes v 2 ++ leBytes h 2)

def sqTail (f q v : Nat) (s : State) : State :=
  let x := s.hq f q
  let d := s.sqDepth f q
  if ¬ x.enabled then refuseDoorbell f q 0 0 v x.sqHead s
  else if d ≤ v then refuseDoorbell f q 0 1 v x.sqHead s
  else if (v + d - x.sqHead) % d < (x.sqTail + d - x.sqHead) % d then refuseDoorbell f q 0 2 v x.sqHead s
  else (s.setHq f q { x with sqTail := v }).setReg (Reg.doorbell f (8 * q)) (BitVec.ofNat 32 v)

def cqHead (f q v : Nat) (s : State) : State :=
  let x := s.hq f q
  let d := s.cqDepth f q
  if ¬ x.enabled then refuseDoorbell f q 1 0 v x.cqTail s
  else if d ≤ v then refuseDoorbell f q 1 1 v x.cqTail s
  else if (x.cqTail + d - x.cqHead) % d < (v + d - x.cqHead) % d then refuseDoorbell f q 1 2 v x.cqTail s
  else (s.setHq f q { x with cqHead := v }).setReg (Reg.doorbell f (8 * q + 4)) (BitVec.ofNat 32 v)

/-- Bits [31:12] of a doorbell are reserved (R351, R12). -/
def execDoorbellSqTail (f : FnNo) (q : Fin 16) (v : Word) (s : State) : Res := .next (s.bar0 (sqTail f.val q.val (wfld v 11 0)))
def execDoorbellCqHead (f : FnNo) (q : Fin 16) (v : Word) (s : State) : Res := .next (s.bar0 (cqHead f.val q.val (wfld v 11 0)))

/-! ### Enabling and disabling (R350) -/

/-- A depth code that is no reserved encoding. -/
def depthOk (n : Nat) : Bool := decide (1 ≤ n ∧ n ≤ 12)

/-- Fetching stops, waiting completion entries are discarded, event entries wait elsewhere, and the commands accepted
run to their end (R350, R355, R360). -/
def disableQueue (f q : Nat) (s : State) : State :=
  let mine (x : Compl) : Bool := x.fn.val == f && x.q.val == q
  let gone := s.host.waiting.filter mine
  let s := { s with host := { s.host with
    waiting := s.host.waiting.filter fun x => !mine x,
    accepted := s.host.accepted.map fun (a : Accepted) => if a.c.fn.val == f && a.c.q.val == q then { a with gone := true } else a } }
  let s := s.setHq f q { s.hq f q with enabled := false }
  let s := gone.foldl (fun s x => if x.credit then s.dropCredit f else s) s
  let s := (gone.filter fun x => x.ty == 1).foldl (fun s x => placeEvent x.slot.toNat q x s) s
  settleQueue f q s

/-- Event records held for the slots of a function go to a queue that is enabled (R360). -/
def releaseHeld (f q : Nat) (s : State) : State :=
  let mine := s.host.held.filter fun e => e.2.fn.val == f
  { s with host := { s.host with held := s.host.held.filter (fun e => e.2.fn.val != f),
                                 waiting := s.host.waiting ++ mine.map fun e => { e.2 with q := q16 q } } }

/-- QC_EN takes effect: indices 0, phase 1. -/
def enableQueue (f q : Nat) (s : State) : State :=
  let s := s.setHq f q { enabled := true, active := true }
  let s := (s.setReg (Reg.doorbell f (8 * q)) 0).setReg (Reg.doorbell f (8 * q + 4)) 0
  releaseHeld f q s

/-- QUEUE_ENABLE: a write of HIF_Qq_CFG (R349, R350). -/
def queueCfg (f q : Nat) (v : Word) (s : State) : State :=
  let r := Reg.queue f q 0x10
  let act := (s.hq f q).active
  let put (hi lo : Nat) (s : State) : State := if act ∨ ¬ depthOk (wfld v hi lo) then s else s.setRf r hi lo (wfld v hi lo)
  let s := put 3 0 (put 7 4 s)
  let was := s.rf r 31 31 = 1
  if v.getLsbD 31 then
    if was then s
    else if ¬ act ∧ depthOk (s.rf r 3 0) ∧ depthOk (s.rf r 7 4) ∧ s.sqBase f q ≠ 0 ∧ s.cqBase f q ≠ 0 then
      enableQueue f q (s.setRf r 31 31 1)
    else s
  else if was then disableQueue f q (s.setRf r 31 31 0)
  else s

def execQueueEnable (f : FnNo) (q : Fin 16) (v : Word) (s : State) : Res := .next (s.bar0 (queueCfg f.val q.val v))

/-! ### Fetch (R353, R355) -/

/-- A queue of a function has entries the device has not fetched. -/
def unfetched (s : State) (f q : Nat) : Bool := let x := s.hq f q; x.enabled && x.sqHead != x.sqTail

/-- The next queue of a function, in round-robin order. -/
def nextQueue (s : State) (f : Nat) : Option Nat :=
  ((List.range 16).map fun k => (tget 0 s.host.rrQ f + k) % 16).find? (unfetched s f)

/-- The function and queue whose entry is fetched next (R355). -/
def nextFetch (s : State) : Option (Nat × Nat) :=
  ((List.range 9).map fun k => (s.host.rrFn + k) % 9).findSome? fun f =>
    if s.freeCredits f = 0 then none else (nextQueue s f).map fun q => (f, q)

/-- Bytes of a memory from an address, in one pass over a table that starts at or after it. -/
def dump : Nat → Nat → Mem → Bytes
  | 0, _, _ => []
  | n + 1, a, [] => 0 :: dump n (a + 1) []
  | n + 1, a, (k, v) :: r => if k = a then v :: dump n (a + 1) r else 0 :: dump n (a + 1) ((k, v) :: r)

/-- Bytes of host memory. -/
def State.hostRead (s : State) (a n : Nat) : Bytes := dump n a (s.host.mem.filter fun e => decide (a ≤ e.1) && decide (e.1 < a + n))

/-- A submission entry (R353). -/
def parseCmd (f : FnNo) (q : Fin 16) (b : Bytes) : HostCmd :=
  { fn := f, q := q, op := BitVec.ofNat 8 (leAt b 0 1), flags := BitVec.ofNat 8 (leAt b 1 1), cid := BitVec.ofNat 16 (leAt b 2 2),
    slot := BitVec.ofNat 8 (leAt b 4 1), rsv := BitVec.ofNat 24 (leAt b 5 3), haddr := BitVec.ofNat 64 (leAt b 8 8),
    len := BitVec.ofNat 64 (leAt b 16 8), va := BitVec.ofNat 64 (leAt b 24 8), arg := padTo (b.drop 32) 96 }

/-- SUBMISSION_FETCH: the entry is fetched with the contents it has now, and accepted (R352, R355). -/
def submissionFetch (f : FnNo) (q : Fin 16) (s : State) : State :=
  if nextFetch s = some (f.val, q.val) then
    let x := s.hq f.val q.val
    let c := parseCmd f q (s.hostRead (s.sqBase f.val q.val + 128 * x.sqHead) 128)
    let s := (s.setHq f.val q.val { x with sqHead := (x.sqHead + 1) % s.sqDepth f.val q.val }).holdCredit f.val
    { s with host := { s.host with rrFn := (f.val + 1) % 9, rrQ := tset 0 s.host.rrQ f.val ((q.val + 1) % 16),
                                   accepted := s.host.accepted ++ [{ c := c }] } }
  else s

def execSubmissionFetch (f : FnNo) (q : Fin 16) (s : State) : Res := .next (submissionFetch f q s)

/-! ### The start of a command (R353) -/

/-- Commands accepted from the same queue before a command that has not started. -/
def earlier (s : State) (c : HostCmd) : List Accepted :=
  if s.host.accepted.any fun a => a.c == c then
    (s.host.accepted.takeWhile fun a => a.c != c || a.started).filter fun a => a.c.fn == c.fn && a.c.q == c.q
  else []

/-- The command may start: the device is READY, which it is neither in RECOVERY nor in FAILED (R373, R374), it has not started, those before it in its queue have, and with SE_FENCE have completed. A
command that no fetch recorded is accepted where it stands (log entry 25). -/
def mayStart (s : State) (c : HostCmd) : Bool :=
  s.isReady && (!(s.host.accepted.any fun a => a.c == c) || s.host.accepted.any fun a => a.c == c && !a.started) &&
  (earlier s c).all fun a => a.started && !c.flags.getLsbD 0

/-- The command has started. -/
def markStarted (c : HostCmd) : List Accepted → List Accepted
  | [] => []
  | a :: r => if a.c == c && !a.started then { a with started := true } :: r else a :: markStarted c r

/-- Bytes of SE_ARG outside the runs a command uses are 0 (R353); a run is its first byte in the entry and its length. -/
def argZero (c : HostCmd) (uses : List (Nat × Nat)) : Bool :=
  (c.arg.zipIdx).all fun e => e.1 == 0 || uses.any fun u => decide (u.1 ≤ e.2 + 32 ∧ e.2 + 32 < u.1 + u.2)

/-- Field of SE_ARG at a byte of the entry. -/
def argAt (c : HostCmd) (o n : Nat) : Nat := leAt c.arg (o - 32) n

/-- Commands whose arrival ends an idle state: ADMIT, START and RESUME, and in I3 the copies (R393). -/
def cmdWake (op : Nat) (s : State) : State :=
  if op = 1 ∨ op = 2 ∨ op = 4 then idleExit s else if op = 6 ∨ op = 7 then hbmWake s else s

/-- An entry starts as the command its opcode names: reserved fields end it with status 0x01 (R357, R359). -/
def startEntry (c : HostCmd) (named : Bool) (uses : List (Nat × Nat)) (run : State → State) (s : State) : State :=
  if named && mayStart s c then
    let s := cmdWake c.op.toNat { s with host := { s.host with accepted := markStarted c s.host.accepted } }
    if c.flags.toNat < 2 ∧ c.rsv = 0 ∧ argZero c uses then run s else finishCmd c 1 0xFF 0 0 0 s
  else s

/-- An entry whose SE_OP is the command's. -/
def startCmd (op : Nat) (c : HostCmd) (uses : List (Nat × Nat)) (run : State → State) (s : State) : State :=
  startEntry c (c.op.toNat == op) uses run s

/-- A command names a slot that no other function owns (R356, R359). -/
def withSlot (c : HostCmd) (run : Nat → State → State) (s : State) : State :=
  let k := c.slot.toNat
  if 16 ≤ k then finishCmd c 1 0xFF 0 0 0 s
  else
    match (s.slot k).owner with
    | some f => if f = c.fn then run k s else finishCmd c 7 k 0 0 0 s
    | none => finishCmd c 2 k 0 0 0 s

end Sys2Proof.Machine
end

