-- ==== Sys2Proof/Machine/Lanes.lean ====
section
/-!
DEFINITION. What a Baette lane carries (R295, R297, R300): PAM4 levels, training frames with their PRBS31 filling, and the
RS(544,514) codewords of the stream with their layout on the lanes.
-/
namespace Sys2Proof.Machine

/-! ### Levels (R295) -/

/-- The level of two consecutive bits. -/
def pam4 (b0 b1 : Bool) : Int :=
  match b0, b1 with
  | false, false => -3
  | true, false => -1
  | true, true => 1
  | false, true => 3

/-- The levels of a run of bits, two bits a symbol. -/
def levels : List Bool → List Int
  | a :: b :: r => pam4 a b :: levels r
  | _ => []

/-! ### Training frames (R297) -/

/-- PRBS31, x³¹ + x²⁸ + 1: one bit, and the register after it (log entry 150). -/
def prbs31 (r : Nat) : Nat × Nat :=
  let b := (r / 2 ^ 30 + r / 2 ^ 27) % 2
  (b, (2 * r + b) % 2 ^ 31)

/-- n bits of filling, the first one at bit 0, and the register after them. -/
def prbsFill (n r : Nat) : Nat × Nat :=
  (List.range n).foldl (fun a i => let e := prbs31 a.2; (a.1 + e.1 * 2 ^ i, e.2)) (0, r)

/-- Register of a logical lane on entry to DETECT. -/
def prbsSeed (m : Nat) : Nat := 0x7FFFFFFF - m

/-- A frame of 2,720 bits: marker, control word and filling; bit 0 leaves first. -/
def trainFrame (ctrl fill : Nat) : Nat := 0x3A5C96F1 + 2 ^ 32 * ctrl + 2 ^ 64 * fill

/-! ### RS(544,514) over GF(2¹⁰) (R300, IEEE 802.3 clause 91; log entry 129) -/

/-- A product in the field with x¹⁰ + x³ + 1; bit 9 of a symbol is its most significant coefficient. -/
def gfMul (a b : Nat) : Nat :=
  (List.range 10).foldl (fun r i =>
    let d := 2 * r
    let d := if 1024 ≤ d then (d - 1024) ^^^ 9 else d
    if b.testBit (9 - i) then d ^^^ a else d) 0

/-- The generator polynomial without its leading coefficient, from x²⁹ down: its roots are α⁰ to α²⁹. -/
def rsGen : List Nat :=
  let step (e : List Nat × Nat) : List Nat × Nat :=
    (List.zipWith (· ^^^ ·) (e.1 ++ [0]) (0 :: e.1.map (gfMul e.2)), gfMul 2 e.2)
  ((List.range 30).foldl (fun e _ => step e) ([1], 1)).1.drop 1

/-- The 30 parity symbols of a message whose first symbol has the highest power. -/
def rsParity (msg : List Nat) : List Nat :=
  let g := rsGen
  msg.foldl (fun r m =>
    let f := (r.headD 0) ^^^ m
    List.zipWith (· ^^^ ·) (r.drop 1 ++ [0]) (g.map (gfMul f))) (List.replicate 30 0)

/-- Symbols of a message of 5,140 bits. -/
def messageSymbols (msg : Nat) : List Nat := (List.range 514).map fun j => msg / 2 ^ (10 * j) % 1024

/-- The 544 symbols of a codeword in the order they are sent. -/
def codeword (msg : Nat) : List Nat := let m := messageSymbols msg; m ++ rsParity m

/-- The symbols that the l-th of w lanes in use carries of a codeword. -/
def laneSymbols (w l msg : Nat) : List Nat :=
  ((codeword msg).zipIdx.filter fun e => e.2 % w == l).map (·.1)

/-- The levels that lane carries. -/
def laneLevels (w l msg : Nat) : List Int :=
  levels ((laneSymbols w l msg).flatMap fun v => (List.range 10).map v.testBit)

/-- Symbols of a codeword that the decoder corrects. -/
abbrev rsCorrects : Nat := 15

/-- Message bits of a codeword, and bits of a flit. -/
abbrev messageBits : Nat := 5140
abbrev flitBits : Nat := 2304

/-- A flit's bits follow those already in the codeword that fills: a message that is complete, the bits after it, and how
many they are. -/
def fillMessage (pos msg flit : Nat) : Option Nat × Nat × Nat :=
  let m := msg + flit * 2 ^ pos
  if messageBits ≤ pos + flitBits then (some (m % 2 ^ messageBits), m / 2 ^ messageBits, pos + flitBits - messageBits)
  else (none, m, pos + flitBits)

/-- A codeword begins in a flit that starts at a bit of a message. -/
def cwBegins (pos : Nat) : Bool := pos == 0 || decide (messageBits < pos + flitBits)

end Sys2Proof.Machine
end

