-- ==== Sys2Proof/Machine/Port.lean ====
section
/-!
DEFINITION. Baette ports in the state: access, receive buffers (R306), and the traffic of a job that ends (R318).
-/
namespace Sys2Proof.Machine

def State.port (s : State) (p : Nat) : Port := tget {} s.ports p
def State.setPort (s : State) (p : Nat) (x : Port) : State := { s with ports := tset {} s.ports p x }
def State.modPort (s : State) (p : Nat) (f : Port → Port) : State := s.setPort p (f (s.port p))

/-- A receive buffer is free again: its credit goes back (R306). -/
def freeBuf (b : Option (Nat × Nat)) (s : State) : State :=
  match b with
  | some (p, v) => s.modPort p fun x => { x with giveBack := tmod 0 x.giveBack v (· + 1) }
  | none => s

/-! ### Traffic of a job that ends -/

/-- What waits at this module for a controller is released with the other traffic of its job. -/
def dropHeld (job : Nat) (s : State) : State :=
  let mine (x : Nat × Nat × LinkFlit) : Bool := fld x.2.2.hdr.toNat 107 92 == job
  (s.linkHeld.filter mine).foldl (fun s x => freeBuf (some (x.1, x.2.1)) s) { s with linkHeld := s.linkHeld.filter fun x => !mine x }

/-- All link traffic of a job is released: what waits at the ports, and what a lost port still holds (R318). -/
def dropJob (job : Nat) (s : State) : State :=
  let keep (f : TxFlit) : Bool := f.ftype == 0 || f.ftype == 5 || f.ftype == 7 || fld f.hdr 107 92 != job
  (List.range 12).foldl (fun s p =>
    let x := s.port p
    let gone := (List.range 5).flatMap fun v => (tget [] x.waiting v).filter fun f => !keep f
    let down := x.st == .down || x.st == .disabled || x.st == .detect || x.st == .eq || x.st == .align
    let s := s.setPort p { x with waiting := (List.range 5).foldl (fun t v => tset [] t v ((tget [] t v).filter keep)) x.waiting,
                                  retry := if down then x.retry.filter keep else x.retry, resend := if down then x.resend.filter keep else x.resend }
    gone.foldl (fun s f => freeBuf f.buf s) s) (dropHeld job s)

end Sys2Proof.Machine
end

