-- ==== Sys2Proof/Machine/Preempt.lean ====
section
/-!
DEFINITION. Pre-emption (R166, R167), resumption (R171), the end of a program (R252, R357, R360, R410) and what a span
that ends reports (R72, R102, R103, R145, R189).
-/
namespace Sys2Proof.Machine

/-! ### Reports of a span -/

/-- Tiles that raised something, with it, by id. -/
def raised (s : State) (f : Tile → Byte) : List (Nat × Byte) := (s.tiles.map fun e => (e.1, f e.2)).filter fun e => e.2 != 0

/-- The tiles' flag words go to ARITH_FLAGS (R72, R76). -/
def flagReport (s : State) : State :=
  let all := (raised s (·.flags)).foldl (fun (m : Byte) e => m ||| e.2) 0
  let new := BitVec.ofNat 8 (all.toNat &&& s.rf Reg.ARITH_MASK 7 0) &&& ~~~(BitVec.ofNat 8 (s.rf Reg.ARITH_FLAGS 7 0))
  let s := s.setBits Reg.ARITH_FLAGS all.toNat
  if new = 0 then s
  else
    let t := (((raised s (·.flags)).find? fun e => e.2 &&& new != 0).map (·.1)).getD 0
    let s := (s.setReg Reg.ARITH_FIRST (BitVec.ofNat 32 t)).setReg Reg.ARITH_SPAN (BitVec.ofNat 32 s.spanNo)
    (s.bump Reg.ARITH_FLAG_COUNT 1).log1 Ev.ARITH_FLAG (Src.tile t)
      (leBytes all.toNat 1 ++ leBytes 0 1 ++ leBytes t 2 ++ leBytes s.spanNo 4)

/-- Status bits of the span, their first tile, and counts by register. -/
def unitReport (status first : RegNo) (bits : Tile → Byte) (counts : List (RegNo × (Tile → Nat))) (s : State) : State :=
  match raised s bits with
  | [] => s
  | (t, b) :: r =>
    let s := (s.setBits status (r.foldl (fun (m : Byte) e => m ||| e.2) b).toNat).setReg first (BitVec.ofNat 32 t)
    counts.foldl (fun s c => s.bump c.1 (s.tiles.foldl (fun n e => n + c.2 e.2) 0)) s

/-- Everything the tiles raised in the span is reported and cleared. MEM_STATUS is set at the events themselves; MEM_FIRST
follows here (log entry 147). -/
def spanReport (s : State) : State :=
  let s := flagReport s
  let s := unitReport Reg.FELT_STATUS Reg.FELT_FIRST (·.feltBits)
    [(Reg.FELT_COLLIDE_COUNT, fun x => tget 0 x.feltCnt feCollide), (Reg.FELT_EMPTY_COUNT, fun x => tget 0 x.feltCnt feEmpty),
     (Reg.FELT_DISCARD_COUNT, fun x => tget 0 x.feltCnt feDiscard)] s
  let s := unitReport Reg.MESH_STATUS Reg.MESH_FIRST (·.meshBits)
    [(Reg.MESH_COLLIDE_COUNT, fun x => tget 0 x.meshCnt 0), (Reg.MESH_CAP_COUNT, fun x => tget 0 x.meshCnt 1),
     (Reg.MESH_RED_COUNT, fun x => tget 0 x.meshCnt 2)] s
  let s := match raised s (·.memBits) with
    | [] => s
    | (t, _) :: _ => s.setReg Reg.MEM_FIRST (BitVec.ofNat 32 t)
  s.tiles.foldl (fun s e => s.modTile e.1 fun x =>
    { x with flags := 0, feltBits := 0, feltCnt := [], meshBits := 0, meshCnt := [], memBits := 0 }) s

/-- The Felt is emptied: each word is discarded at the tile at whose position it stands (R87). -/
def feltFlush (s : State) : State :=
  let m := s.feltMode
  let L := loopLen m
  let s := s.felt.words.foldl (fun s w =>
    let x := (s.cycle + L - w.phase) % L
    let p := 144 * (x / 150) + min (x % 150) 143
    s.feltDiscard (((List.range 2304).find? fun t => feltPos m t == (w.loop, p)).getD 0)) s
  { s with felt := { s.felt with words := [], removals := [], runs := [] } }

/-! ### Stopping (R167) -/

/-- The tile stands in a wait, has ended, or lies in a polder that issues nothing (R252). -/
def tileStopped (s : State) (t : Nat) : Bool :=
  s.polder (polderOf t) != 0 ||
    match (s.tile t).core with
    | .running => false
    | .delayed _ => false
    | _ => true

/-- Every sheet released for the entry is complete (R165). -/
def QEnt.settled (e : QEnt) : Bool := !e.moves || (rangeFrom e.skip e.released.length).all fun j => e.done.contains j

/-- What is left of the entry is held: every sheet is released, and is complete or waits for a condition of R332. -/
def QEnt.allHeld (e : QEnt) : Bool := e.moves && !e.held.isEmpty && e.next == e.d.len && e.wants.all fun j => e.done.contains j || e.held.contains j

/-- Every queue that is not halted is empty but for held reads, which resume with the program, and in a halted one the
sheets that were released are complete (R165, R167, R336; log entry 157). -/
def queuesDrained (s : State) : Bool :=
  s.que.q.all fun e => if (tfind s.que.halts e.1).isSome then e.2.all QEnt.settled else e.2.all QEnt.allHeld

/-- The mesh holds no packet. -/
def meshEmpty (s : State) : Bool :=
  s.mesh.flits.isEmpty && s.mesh.vbuf.all (fun e => e.2.isEmpty) && s.mesh.offer.all (fun e => e.2.isEmpty) &&
    s.mesh.inb.all (fun e => e.2.isEmpty) && s.mesh.deposit.all fun e => e.2.isEmpty

/-- Every chain has ended and every delayed effect is in force. -/
def effectsDone (s : State) : Bool :=
  s.sched.isEmpty && s.mem.acc.isEmpty && s.tiles.all fun e => e.2.chains.isEmpty && e.2.drains.isEmpty

/-- Pulp phases have run to completion, also those in which an engine stands with a halted queue (R167, R209). -/
def pulpStill (s : State) : Bool := s.pulp.all fun e => !e.2.active

/-- Steps 1 and 2 of R167 are over for the program of slot k. -/
def allStopped (s : State) (k : Nat) : Bool :=
  (s.slot k).coded.all (tileStopped s) && queuesDrained s && meshEmpty s && effectsDone s && pulpStill s

/-- Waiting host commands of a kind that name a slot end with a status. -/
def finishWaits (k code status i0 : Nat) (s : State) : State :=
  (s.host.waits.filter fun w => w.1 == code && w.2.slot.toNat == k).foldl (fun s w => finishCmd w.2 status k i0 0 0 s) s

abbrev opPreempt : Nat := 3
abbrev opResume : Nat := 4
abbrev opCopyOut : Nat := 7
abbrev opAbort : Nat := 8

/-- The grid zeroing of an FLR of the function that last issued, once no slot of it is torn down any more (R437). -/
def zeroOwned (f : Nat) (s : State) : State :=
  if s.rf Reg.SEC_GRID 3 0 = f ∧ ¬ s.gridBusy ∧ ¬ s.slots.any (fun e => e.2.teardown && (e.2.owner.map (·.val)) == some f) then
    (gridZero s).setRf Reg.SEC_GRID 3 0 0xF
  else s

/-- A slot under teardown by FLR is released; copies that wait for it end with status 0x08 (R361, R363). -/
def teardownDone (k : Nat) (s : State) : State :=
  if (s.slot k).teardown then
    let f := ((s.slot k).owner.map (·.val)).getD 0xF
    let s := finishWaits k opCopyOut 8 0 s
    zeroOwned f (releaseSlot k s)
  else s

/-- The grid as a program leaves it: nothing is in flight and no bundle issues. -/
def quiesce (s : State) : State :=
  let s := s.tiles.foldl (fun s e => s.modTile e.1 fun x =>
    { x with core := .ended, drains := [], chains := [], ld := [], chainUse := [], brTarget := none,
             arr0 := { x.arr0 with streams := [] }, arr1 := { x.arr1 with streams := [] } }) s
  { s with felt := {}, mesh := {}, que := {}, pulp := [], sched := [], pulpDone := none, pulpLogged := false,
           mem := { s.mem with rsvw := [], acc := [], used := [], halves := [] }, clk := { s.clk with hist := [], now := [], droop := [], origin := 0, forced := false },
           ras := { s.ras with win := 0, hold := false } }

/-- The program of slot k has ended: reports, the slot ENDED, the event record, and the commands that waited (R252,
R357, R360, R410). Every polder is ACTIVE until an idle state is entered (R227). -/
def endProgram (k ev : Nat) (code : BitVec 16) (seq : Option Nat) (s : State) : State :=
  let n := (s.slot k).span.toNat
  let s := spanReport s
  let s := s.slotTo k .ended
  let s := postEvent k ev code seq k (s.setSlot k { s.slot k with pendStop := none, ending := none })
  let s := if s.prState = 1 ∨ s.prState = 2 then s.setRf Reg.PRE_STATUS 31 29 0 else s
  let s := opIdle (dropJob (s.slot k).job.toNat (setPolders 0 (quiesce (idleReams k s))))
  let s := finishWaits k opPreempt 2 0 (finishWaits k opAbort 0 n s)
  teardownDone k s

/-- A PREEMPTED program ends where it is stored; the grid is not its own (R314, R360). The flag words in its save area are not added
to ARITH_FLAGS, which R72 gives at a boundary or an end of a program on the grid (log entry 146). -/
def endStored (k ev : Nat) (code : BitVec 16) (seq : Option Nat) (s : State) : State :=
  let s := s.slotTo k .ended
  let s := postEvent k ev code seq k (s.setSlot k { s.slot k with pendStop := none, ending := none })
  dropJob (s.slot k).job.toNat (idleReams k s)

/-- The program that is being stopped without a save has stopped (R357). -/
def stopCheck (s : State) : State :=
  match s.running with
  | none => s
  | some k =>
    match (s.slot k).ending with
    | some e => if allStopped s k then endProgram k e.1 e.2.1 e.2.2 (feltFlush (settleStreams s)) else s
    | none => s

/-- Steps 1 and 2 of R167 begin, without a save: ABORT, FLR, a stop whose boundary does not come. -/
def beginEnd (k ev : Nat) (code : BitVec 16) (seq : Option Nat) (s : State) : State :=
  let s := s.slotTo k .stopping
  stopCheck (s.setSlot k { s.slot k with ending := some (ev, code, seq), reqCycle := s.cycle })

/-! ### Save (R167 steps 3–5) -/

/-- PREEMPT_SAVE_START: every tile has stopped, queues and mesh are empty: the save begins. -/
def saveStart (us : Nat) (s : State) : State :=
  match s.running with
  | none => s
  | some k =>
    if s.prState = 1 ∧ (s.slot k).ending.isNone ∧ allStopped s k then
      let s := (s.setRf Reg.PRE_STATUS 31 29 2).setReg Reg.PRE_LAST_STOP (BitVec.ofNat 32 us)
      let r := logTry s Ev.PREEMPT (Src.slot k)
        (leBytes (s.rf Reg.PRE_STATUS 28 28) 1 ++ leBytes k 1 ++ leBytes (s.rf Reg.PRE_STATUS 11 0) 2 ++ leBytes us 4) (some (k + 16))
      r.1.setSlot k { r.1.slot k with preSeq := r.2 }
    else s

def execPreemptSaveStart (us : BitVec 32) (s : State) : Res := .next (saveStart us.toNat s)

/-- PREEMPT_SAVE_DONE: the save area is written, and the slot is PREEMPTED (R167 step 5, R360). -/
def saveDone (us : Nat) (s : State) : State :=
  match s.running with
  | none => s
  | some k =>
    if s.prState = 2 then
      let s := saveGrid k (feltFlush (settleStreams s))
      let s := (s.setRf Reg.PRE_STATUS 31 29 3).setReg Reg.PRE_LAST_SAVE (BitVec.ofNat 32 us)
      let s := (s.bump Reg.PRE_COUNT 1).slotTo k .preempted
      let s := opIdle (setPolders 0 (quiesce s))
      let s := if s.rf Reg.PRE_STATUS 28 28 = 1 then postEvent k 4 Ev.PREEMPT (s.slot k).preSeq (k + 16) s else s
      teardownDone k (finishWaits k opPreempt 0 us s)
    else s

def execPreemptSaveDone (us : BitVec 16) (s : State) : Res := .next (saveDone us.toNat s)

/-! ### Resumption (R171) -/

def State.restoring (s : State) : Option Nat := (s.slots.find? fun e => e.2.state == .restoring).map (·.1)

/-- RESTORE_DONE, once the governor has raised the draw where it leads (R391): the tiles stand in their waits again; the cycles since the save count as cycles of those waits. -/
def restoreDone (s : State) : State :=
  match if s.pwr.preload then none else s.restoring with
  | none => s
  | some k =>
    let p := s.slot k
    let s := { s with cycle := p.savedCycle + (s.ticks - p.savedTick) }
    let s := loadKept k (loadWindows k (loadGrid k s))
    let s := (applyRecord k p.spanRec s).slotTo k .running
    let s := finishWaits k opResume 0 0 (s.setRf Reg.PRE_STATUS 31 29 0)
    match (s.slot k).ending with
    | some e => beginEnd k e.1 e.2.1 e.2.2 s
    | none => if (s.slot k).teardown then beginEnd k 5 0 (some 0) s else s

def execRestoreDone (s : State) : Res := .next (restoreDone s)

/-- STOP_TIMEOUT: no boundary followed the first stopping record within LT_TIMEOUT (R410). -/
def stopTimeout (s : State) : State :=
  match s.running with
  | none => s
  | some k =>
    let p := s.slot k
    match p.pendStop with
    | some c => if p.state = .running then beginEnd k 2 c.1 c.2 s else s
    | none => s

def execStopTimeout (s : State) : Res := .next (stopTimeout s)

end Sys2Proof.Machine
end

