-- ==== Sys2Proof/Machine/Link.lean ====
section
/-!
DEFINITION. Baette ports: assignment (R293, R294), states and training (R296–R299), flits and their sending
(R300–R306), routes and order (R307–R309), loss of a port and failover (R315, R316), identification (R317, R318).
-/
namespace Sys2Proof.Machine

def PortState.code : PortState → Nat
  | .disabled => 0
  | .detect => 1
  | .eq => 2
  | .align => 3
  | .ident => 4
  | .active => 5
  | .degraded => 6
  | .recover => 7
  | .standby => 8
  | .down => 9

/-! ### Assignment and shape (R293, R294) -/

/-- The port of the neighbour that port p mates with. -/
def mate (p : Nat) : Nat := (p % 6 + 3) % 6 + 6 * (p / 6)
/-- The other member of a port's direction. -/
def fellow (p : Nat) : Nat := (p + 6) % 12
/-- Dimension of a port: 0 X, 1 Y, 2 Z; and whether it leads in the + direction. -/
def portDim (p : Nat) : Nat := p % 3
def portPlus (p : Nat) : Bool := decide (p % 6 < 3)

/-- Size of the domain in a dimension. -/
def State.dim (s : State) (d : Nat) : Nat := if s.rf Reg.LNK_SHAPE 31 31 = 1 then s.rf Reg.LNK_SHAPE (4 * d + 3) (4 * d) + 1 else 1

/-- Coordinate of a rank in a dimension. -/
def State.coord (s : State) (r d : Nat) : Nat :=
  match d with
  | 0 => r % s.dim 0
  | 1 => r / s.dim 0 % s.dim 1
  | _ => r / (s.dim 0 * s.dim 1)

/-- Rank at coordinates that differ from own in one dimension. -/
def State.rankAt (s : State) (d c : Nat) : Nat :=
  let k (e : Nat) : Nat := if e = d then c else s.coord s.rank e
  k 0 + s.dim 0 * (k 1 + s.dim 1 * k 2)

/-- Rank of the neighbour a port leads to. -/
def State.neighbourRank (s : State) (p : Nat) : Nat :=
  let d := portDim p
  let n := s.dim d
  s.rankAt d (if portPlus p then (s.coord s.rank d + 1) % n else (s.coord s.rank d + n - 1) % n)

/-- An EXTERNAL port: honoured in a dimension of size 1 only (R294, R320). -/
def State.external (s : State) (p : Nat) : Bool := s.rf (Reg.port p 8) 9 9 == 1 && s.dim (portDim p) == 1

def State.linkUp (s : State) (p : Nat) : Bool := (s.port p).st == .active || (s.port p).st == .degraded

def State.linkEnabled (s : State) (p : Nat) : Bool := bitN (s.reg Reg.LNK_CTRL).toNat p
def State.linkAuto (s : State) : Bool := s.rf Reg.LNK_CTRL 16 16 == 1

/-! ### Flits (R301, R302) -/

/-- A header without its link fields. -/
def hdrOf (ftype xs dst src job sp va attr aux : Nat) : Nat :=
  ftype * 2 ^ 188 + xs * 2 ^ 128 + dst * 2 ^ 118 + src * 2 ^ 108 + job * 2 ^ 92 + sp * 2 ^ 91 + va * 2 ^ 40 + attr * 2 ^ 32 + aux

def flitFd (f : LinkFlit) (hi lo : Nat) : Nat := fld f.hdr.toNat hi lo
def flitType (f : LinkFlit) : Nat := flitFd f 191 188

/-- The check of a flit over bytes 0–283. -/
def flitCrc (hdr : BitVec 192) (payload : Bytes) (schk : Word) : Word :=
  crc32c (leBytes hdr.toNat 24 ++ padTo payload 256 ++ leBytes schk.toNat 4)

/-- The 2,304 bits of a flit, bit 0 of byte 0 first (R300, R301). -/
def linkBits (f : LinkFlit) : Nat :=
  f.hdr.toNat + 2 ^ 192 * leNat (padTo f.payload 256) + 2 ^ 2240 * f.schk.toNat + 2 ^ 2272 * f.fcrc.toNat

/-- A flit follows the flits already in the stream; a message that is complete leaves as a codeword (R300). -/
def Port.stream (x : Port) (f : LinkFlit) : Port :=
  let r := fillMessage x.txPos x.txMsg (linkBits f)
  { x with txMsg := r.2.1, txPos := r.2.2, txLast := r.1.orElse fun _ => x.txLast }

/-- A flit as it leaves a port: its link fields are filled in, and credits are returned (R302, R306). -/
def emit (p : Nat) (f : TxFlit) (s : State) : State :=
  let x := s.port p
  let give (v : Nat) : Nat := min 63 (tget 0 x.giveBack v)
  let cr := (List.range 5).foldl (fun n v => n + give v * 2 ^ (130 + 6 * v)) 0
  let h := f.hdr + f.seq * 2 ^ 176 + (x.expect + 4095) % 4096 * 2 ^ 164 + b2n x.nak * 2 ^ 163 + f.vc * 2 ^ 160 + cr
  let hdr := BitVec.ofNat 192 h
  let back := (List.range 5).foldl (fun t v => tmod 0 t v (· - give v)) x.giveBack
  let g : LinkFlit := ⟨hdr, padTo f.payload 256, f.schk, flitCrc hdr f.payload f.schk⟩
  s.setPort p (Port.stream { x with giveBack := back, sent := some g } g)

/-! ### Sending (R304–R306) -/

/-- First word of a flit of a port's retry buffer among the words of the levee SRAM (R408; log entry 161). -/
def retryWord (p seq : Nat) : Nat := 2 ^ 32 + (p * 4096 + seq) * 37

/-- Two flits go from one source rank to one destination rank, both as requests or both as responses (R309). -/
def TxFlit.samePair (f g : TxFlit) : Bool := f.vc / 2 == g.vc / 2 && fld f.hdr 128 108 == fld g.hdr 128 108

/-- The other member of the direction still holds an earlier flit of the pair: the flit waits, so that the pair stays in
order (R309). -/
def Port.holdsBack (y : Port) (f : TxFlit) : Bool :=
  f.vc < 4 && (y.retry ++ tget [] y.waiting (f.vc / 2 * 2) ++ tget [] y.waiting (f.vc / 2 * 2 + 1)).any fun g =>
    f.samePair g && decide (g.ord < f.ord)

/-- The flit the port may send now on a channel, `y` being the other member of its direction: in IDENT and STANDBY only
MGMT. -/
def Port.head (x y : Port) (v : Nat) : Option TxFlit :=
  if tget 0 x.credit v = 0 then none
  else if x.st == .active || x.st == .degraded then (tget [] x.waiting v).head?.filter fun f => !y.holdsBack f
  else (tget [] x.waiting v).find? fun f => f.ftype == 7

/-- The channel served next: VC4, then responses, then requests, in round-robin order within a class. -/
def Port.pick (x y : Port) : Option TxFlit :=
  let cls (k : Nat) : List Nat := let a := tget 0 x.rr k; [2 * k + a, 2 * k + (1 - a)]
  ((4 :: cls 1 ++ cls 0).findSome? fun v => x.head y v)

/-- The next flit of a port is sent: a replay, a waiting flit, or a NULL flit. -/
def linkSend (p : Nat) (s : State) : State :=
  let x := s.port p
  if x.st = .ident ∨ x.st = .active ∨ x.st = .degraded ∨ x.st = .standby then
    match x.resend with
    | f :: r => emit p f (s.setPort p { x with resend := r })
    | [] =>
      match if x.retry.length < 512 then x.pick (s.port (fellow p)) else none with
      | some f =>
        let g := { f with seq := x.seq }
        let rr := if f.vc < 4 then tset 0 x.rr (f.vc / 2) (1 - f.vc % 2) else x.rr
        let s := s.eccFresh placeLevee (retryWord p x.seq) 37
        let x := { x with seq := (x.seq + 1) % 4096, retry := x.retry ++ [{ g with buf := none }], rr := rr,
                          credit := tmod 0 x.credit f.vc (· - 1), waiting := tset [] x.waiting f.vc ((tget [] x.waiting f.vc).erase f) }
        emit p g (freeBuf f.buf (s.setPort p x))
      | none => emit p { vc := 0, ftype := 0, hdr := 0, payload := [], schk := 0, seq := x.seq } s
  else s

def execLinkFlitSend (p : PortNo) (s : State) : Res := .next (linkSend p.val s)

/-- A flit waits at a port, after those that came before it. -/
def linkPut (p : Nat) (f : TxFlit) (s : State) : State :=
  { s with linkN := s.linkN + 1 }.modPort p fun x =>
    { x with waiting := tset [] x.waiting f.vc (tget [] x.waiting f.vc ++ [{ f with ord := s.linkN }]) }

/-! ### Routes (R307, R308) -/

/-- Dimension and direction of the next hop towards a rank. -/
def nextHop (s : State) (dst : Nat) : Option (Nat × Bool) :=
  ([0, 1, 2].find? fun d => s.coord s.rank d != s.coord dst d).map fun d =>
    let n := s.dim d
    let k := (s.coord dst d + n - s.coord s.rank d) % n
    (d, decide (k ≤ n - k))

/-- The hop crosses the dateline of its dimension. -/
def wraps (s : State) (d : Nat) (plus : Bool) : Bool :=
  if plus then s.coord s.rank d + 1 == s.dim d else s.coord s.rank d == 0

/-- The port for a hop: member p of the direction, the other member where that one is not up (R307). -/
def memberPort (s : State) (d : Nat) (plus : Bool) (m : Nat) : Nat :=
  let p := (if plus then d else d + 3) + 6 * m
  if s.linkUp p then p else if s.linkUp (fellow p) then fellow p else p

/-- A request (class 0) or response (class 1) goes on from this module; the port and channel it came in on. -/
def forward (f : TxFlit) (dst src cls : Nat) (came : Option (Nat × Nat)) (s : State) : State :=
  match nextHop s dst with
  | none => s
  | some (d, plus) =>
    let high := wraps s d plus || (match came with
      | some (q, v) => portDim q == d && v % 2 == 1
      | none => false)
    linkPut (memberPort s d plus (popcount (src ^^^ dst) 10 % 2)) { f with vc := 2 * cls + b2n high } s

/-- The tide of a slot's program changes. -/
def State.modTide (s : State) (k : Nat) (f : Tide → Tide) : State := s.setSlot k { s.slot k with tide := f (s.slot k).tide }

/-- A transaction of slot k originates here and is counted for its span (R309, R310). -/
def originate (k ftype dst sp va attr aux : Nat) (payload : Bytes) (schk : Word) (s : State) : State :=
  let f : TxFlit := { vc := 0, ftype := ftype, hdr := hdrOf ftype 0 dst s.rank (s.slot k).job.toNat sp va attr aux, payload := payload, schk := schk }
  let s := s.modTide k fun d => { d with sent := tmod 0 d.sent sp (· + 1) }
  forward f dst s.rank (if ftype = 4 then 1 else 0) none s

/-! ### Loss of a port (R315, R316) -/

def shapeRec (s : State) : Nat := s.rf Reg.LNK_SHAPE 11 0 + 32768 * s.rf Reg.LNK_SHAPE 31 31

/-- A management record (R317). -/
def mgmtRec (s : State) (kind p lastSeq lastPort : Nat) : Bytes :=
  leBytes kind 1 ++ leBytes p 1 ++ leBytes (s.rf Reg.LNK_RANK 9 0) 2 ++ leBytes (s.reg Reg.LNK_DTAG).toNat 4 ++ leBytes (shapeRec s) 2 ++
    leBytes lastSeq 2 ++ leBytes lastPort 1

/-- A flit of one hop on VC4; its type carries no sheet, so that SCHK is 0 (R301, R303). -/
def hopFlit (ftype : Nat) (rec' : Bytes) : TxFlit :=
  { vc := 4, ftype := ftype, hdr := hdrOf ftype 0 0 0 0 0 0 0 0, payload := padTo rec' 256, schk := 0 }

/-- The flits of a lost port that the peer has not received go ahead of the new ones of the surviving member, on their
channels and in order. MGMT flits concern the lost port alone. -/
def failOver (p last : Nat) (s : State) : State :=
  let x := s.port p
  let q := fellow p
  let n := (last + 4096 - x.acked) % 4096
  let left := ((x.retry.drop n) ++ (List.range 5).flatMap fun v => tget [] x.waiting v).filter fun f => f.ftype != 7
  let s := s.setPort p { x with retry := [], resend := [], waiting := [], failing := false, lostSeq := none }
  s.modPort q fun y => { y with waiting := (List.range 5).foldl (fun t v => tset [] t v (left.filter (·.vc == v) ++ tget [] y.waiting v)) y.waiting }

/-- The port goes to DOWN: from the training states without a record (log entry 34); from ACTIVE, DEGRADED and RECOVER
with LINK_DOWN and, where the other member is up, its FAILOVER record (R315, R316). -/
def portDown (p cause : Nat) (s : State) : State :=
  let x := s.port p
  let was := x.st
  let s := s.setPort p { x with st := .down, width := 0, cause := cause, lanes := [], aligning := false, cdown := 0 }
  if was = .active ∨ was = .degraded ∨ was = .recover then
    let q := fellow p
    let failover := s.linkUp q
    let last := (x.expect + 4095) % 4096
    let s := (s.setBits Reg.LNK_STATUS 2).bump Reg.LNK_DOWN_COUNT 1
    let s := s.log1 Ev.LINK_DOWN (Src.port p)
      (leBytes p 1 ++ leBytes cause 1 ++ leBytes was.code 1 ++ leBytes (b2n failover) 1 ++ leBytes last 2 ++ leBytes 0 2 ++
        leBytes (match x.peer with
          | some e => e.2
          | none => 0xFFFF) 2)
    if failover then
      let s := linkPut q (hopFlit 7 (mgmtRec s 2 q last p)) s
      match x.lostSeq with
      | some l => failOver p l s
      | none => s.modPort p fun x => { x with failing := true }
    else s
  else s

/-! ### Training (R296–R299) -/

/-- DETECT: what training has shown is forgotten, and the registers that fill the frames are seeded (R297). -/
def toDetect (p : Nat) (s : State) : State :=
  s.modPort p fun x => { x with st := .detect, width := 0, base := 0, rev := false, pol := 0, lgood := 0, lanes := [],
                                tx := (List.range 8).map fun m => (m, { fill := prbsSeed m }), sendAcc := 0, aligning := false, cdown := 0,
                                peer := none }

/-- The presets of the calibration set are in the ports, which train from here on (R372). -/
def State.portsOn (s : State) : Bool :=
  s.stage == 6 || s.stage == 7 || (s.stage == 9 && s.rf Reg.BOOT_STATUS 15 12 == 2)

/-- A transmit lane starts from the preset it names (R297, R320). -/
def startTaps (s : State) (p m : Nat) (t : TxLane) : TxLane :=
  { fill := t.fill, frame := t.frame, taps := tget 0 s.presets (s.rf (Reg.port p (0x20 + 4 * m)) 2 0) }

/-- All transmit lanes of a port. -/
def startLanes (s : State) (p : Nat) (tx : Tbl TxLane) : Tbl TxLane :=
  (List.range 8).map fun m => (m, startTaps s p m (tget {} tx m))

/-- The receive lane that carries a logical lane. -/
def Port.laneOf (x : Port) (m : Nat) : Option (Nat × LaneSt) := x.lanes.find? fun e => e.2.found && e.2.lane == m

/-- A logical lane passes EQ in both directions. -/
def Port.passes (x : Port) (m : Nat) : Bool :=
  match x.laneOf m with
  | some e => e.2.good && decide (2 ≤ e.2.peerState)
  | none => false

/-- The peer sends a logical lane as unused. -/
def Port.unused (x : Port) (m : Nat) : Bool :=
  match x.laneOf m with
  | some e => e.2.peerState == 0
  | none => false

/-- The lanes a port trains with: how many and from which on (R299); `last` when the time limit is reached. -/
def Port.choice (x : Port) (x4 last : Bool) : Option (Nat × Nat) :=
  let half (b : Nat) : Bool := (rangeFrom b 4).all x.passes
  if !x4 && half 0 && half 4 then some (8, 0)
  else if half 0 && (x4 || last || (rangeFrom 4 4).all x.unused) then some (4, 0)
  else if half 4 && (last || (rangeFrom 0 4).all x.unused) then some (4, 4)
  else none

/-- The mapping of the lanes in use: straight, reversed, or none that a port accepts (R298). -/
def Port.mapping (x : Port) (w b : Nat) : Option Bool :=
  let ls := (rangeFrom b w).map fun m => ((x.laneOf m).map (·.1)).getD 99
  if (ls.zip (rangeFrom b w)).all fun e => e.1 == e.2 then some false
  else if (ls.zip (rangeFrom b w)).all fun e => e.1 + e.2 == 7 then some true
  else none

/-- EQ or RECOVER settles on lanes, and 16 frames with TSTATE 3 follow: ALIGN, or that part of RECOVER; or DOWN for a
mapping the port does not accept (R296–R298). -/
def settleLanes (p w b : Nat) (s : State) : State :=
  let x := s.port p
  match x.mapping w b with
  | none => portDown p 4 s
  | some r =>
    let good := (List.range 8).foldl (fun n m => n + b2n (x.passes m) * 2 ^ m) 0
    let pol := x.lanes.foldl (fun n e => n + b2n e.2.inverted * 2 ^ e.1) 0
    s.setPort p { x with st := if x.st = .recover then .recover else .align, width := w, base := b, rev := r, lgood := good, pol := pol,
                         aligning := true, cdown := 16 }

/-- Nothing of the stream has passed: it starts at codeword 0 and flit 0 (R300). -/
def Port.restart (x : Port) : Port :=
  { x with aligning := false, cdown := 0, txMsg := 0, txPos := 0, txLast := none, rxPos := 0, rxBad := false }

/-- Flits a port has not seen acknowledged and those that wait, by channel: none is discarded (R318). Management records say what
held of the link that was left, and are sent anew. -/
def Port.unsent (x : Port) : Tbl (List TxFlit) :=
  (List.range 5).foldl (fun t v => tset [] t v (((x.retry.filter fun f => f.vc == v) ++ tget [] x.waiting v).filter fun f => f.ftype != 7)) []

/-- Entry to IDENT: the stream starts anew, and IDENT is sent (R300, R306, R318; log entry 152). -/
def toIdent (p : Nat) (s : State) : State :=
  let s := s.modPort p fun x => { x.restart with st := .ident, seq := 0, acked := 4095, expect := 0, nak := false, replays := 0, retry := [],
                                                 resend := [], giveBack := [], credit := [(4, 8)], failing := false, lostSeq := none,
                                                 waiting := x.unsent }
  let s := if (s.port p).width = 4 then
      ((s.setBits Reg.LNK_STATUS 4).bump Reg.LNK_DEGR_COUNT 1).log1 Ev.LINK_DEGRADED (Src.port p)
        (leBytes p 1 ++ leBytes 4 1 ++ leBytes (s.port p).lgood 1)
    else s
  linkPut p (hopFlit 7 (mgmtRec s 1 p 0 0)) s

/-- Entry to RECOVER from any state: link-layer state is kept. A port that carried traffic returns to it, one in STANDBY
to STANDBY, and one that had not passed IDENT goes there (R296, R305; log entry 151). -/
def enterRecover (p : Nat) (s : State) : State :=
  { s with ras := { s.ras with calOn := if s.ras.calOn = some p then none else s.ras.calOn } }.modPort p fun x =>
    { x with st := .recover, lanes := [], tx := startLanes s p x.tx, sendAcc := 0, aligning := false, cdown := 0,
             back := match x.st with
               | .active => .active
               | .degraded => .active
               | .standby => .standby
               | .recover => x.back
               | _ => .ident }

/-- Every unacknowledged flit is sent again from ACK + 1; the eighth replay in a row without an advance of ACK takes the
port to RECOVER (R305). `why` is byte 1 of LINK_RETRY. -/
def replay (p why : Nat) (s : State) : State :=
  let x := s.port p
  let s := x.retry.foldl (fun s g => s.eccSpan placeLevee (retryWord p g.seq) 37 (Src.levee (p / 3)) p none) s
  let s := ((s.bump (Reg.port p 0x18) 1).bump Reg.LNK_RETRY_COUNT 1).setBits Reg.LNK_STATUS 1
  let s := s.log1 Ev.LINK_RETRY (Src.port p)
    (leBytes p 1 ++ leBytes why 1 ++ leBytes ((x.acked + 1) % 4096) 2 ++ leBytes (s.reg (Reg.port p 0x18)).toNat 4)
  let s := s.setPort p { x with resend := x.retry, replays := x.replays + 1 }
  if 8 ≤ x.replays + 1 then enterRecover p s else s

/-- The end of RECOVER: the port goes on where it stood and replays from ACK + 1 what is unacknowledged (R296, R305), which
counts as a replay for which no NAK asked (log entry 175). -/
def recovered (p : Nat) (s : State) : State :=
  let s := s.modPort p fun x =>
    { x.restart with st := if x.back = .standby then .standby else if x.width = 8 then .active else .degraded, resend := [], replays := 0 }
  if (s.port p).retry.isEmpty then s else replay p 2 s

/-- The stream starts once the last frame was sent, and was received on every lane in use (R296, R297). -/
def streamStart (p : Nat) (s : State) : State :=
  let x := s.port p
  let ready := (rangeFrom x.base x.width).all fun m => match x.laneOf m with
    | some e => e.2.last
    | none => false
  if ¬ x.aligning ∨ x.cdown ≠ 0 ∨ ¬ ready then s
  else if x.st = .align ∨ x.back = .ident then toIdent p s
  else recovered p s

/-- The peer's requests to the taps of a transmit lane, and the answers (R297): a request counts once, when it differs
from that of the frame before (log entry 35). -/
def tapRequest (s : State) (preq : Bool) (psel cupd : Nat) (t : TxLane) : TxLane :=
  let t1 := if preq && (!t.preq || psel != t.psel) then { t with taps := tget 0 s.presets psel } else t
  let r := (List.range 4).foldl (fun (a : Nat × Nat) i =>
    let at_ := 6 - 2 * i
    let req := fld cupd (at_ + 1) at_
    let old := fld t.cupd (at_ + 1) at_
    let c := fld a.1 (6 * i + 5) (6 * i)
    if req = old then (a.1, a.2 + fld t.cstat (at_ + 1) at_ * 2 ^ at_)
    else if req = 1 then (if c = 63 then (a.1, a.2 + 3 * 2 ^ at_) else (a.1 + 2 ^ (6 * i), a.2 + 2 ^ at_))
    else if req = 2 then (if c = 0 then (a.1, a.2 + 2 * 2 ^ at_) else (a.1 - 2 ^ (6 * i), a.2 + 2 ^ at_))
    else a) (t1.taps, 0)
  { t with taps := r.1, cstat := r.2, cupd := cupd, preq := preq, psel := psel }

/-- A frame is taken by a physical lane: what it shows, and the peer's request to the transmit lane of its number. -/
def frameIn (p lane ctrl : Nat) (inv good : Bool) (s : State) : State :=
  let x := s.port p
  let ts := fld ctrl 31 28
  let m := fld ctrl 27 24
  let l : LaneSt := { found := true, good := (tget ({} : LaneSt) x.lanes lane).good || good, peerState := ts, lane := m, inverted := inv,
                      last := ts == 3 && fld ctrl 23 20 == 0 }
  let t := tapRequest s (bitN ctrl 19) (fld ctrl 18 16) (fld ctrl 15 8) (tget {} x.tx m)
  s.setPort p { x with lanes := tset {} x.lanes lane l, tx := if m < 8 then tset {} x.tx m t else x.tx }

/-- DETECT ends when four lanes have found the marker. -/
def detectEnd (p : Nat) (s : State) : State :=
  let x := s.port p
  if x.st = .detect ∧ 4 ≤ (x.lanes.filter fun e => e.2.found).length then s.setPort p { x with st := .eq, tx := startLanes s p x.tx } else s

/-- The lanes that EQ or RECOVER settles on: those in use before, where RECOVER was entered with some (R296, R299). -/
def Port.settled (x : Port) (x4 last : Bool) : Option (Nat × Nat) :=
  match x.st with
  | .eq => x.choice x4 last
  | .recover =>
    if x.aligning then none
    else if x.width = 0 then x.choice x4 last
    else if (rangeFrom x.base x.width).all x.passes then some (x.width, x.base) else none
  | _ => none

/-- TRAINING_FRAME: a frame is received on a physical lane. -/
def trainingFrame (p lane : Nat) (ctrl : Nat) (inv good : Bool) (s : State) : State :=
  let st := (s.port p).st
  if st = .detect ∨ st = .eq ∨ st = .align ∨ st = .recover then
    let s := detectEnd p (frameIn p lane ctrl inv good s)
    match (s.port p).settled (s.rf (Reg.port p 8) 8 8 == 1) false with
    | some c => streamStart p (settleLanes p c.1 c.2 s)
    | none => streamStart p s
  else s

def execTrainingFrame (p : PortNo) (lane : Fin 8) (ctrl : BitVec 32) (inv good : Bool) (s : State) : Res :=
  .next (trainingFrame p.val lane.val ctrl.toNat inv good s)

/-! ### The frames a port sends (R297) -/

/-- The state a lane shows: unused or ready once the lanes are settled, else whether its receiver is done. -/
def Port.tstate (x : Port) (m : Nat) : Nat :=
  if x.aligning then (if x.base ≤ m ∧ m < x.base + x.width then 3 else 0)
  else if x.st = .detect then 1
  else match x.laneOf m with
    | some e => if e.2.good then 2 else 1
    | none => 1

/-- What a receiver that adapts asks of the peer's transmitter, which no rule fixes: PREQ, PSEL and CUPD from a free value
(log entry 150). -/
def tapWish (r : Word) : Nat :=
  let ask (i : Nat) : Nat := let q := wfld r (2 * i + 9) (2 * i + 8); (if q = 3 then 0 else q) * 2 ^ (2 * i + 8)
  wfld r 3 0 * 2 ^ 16 + ask 0 + ask 1 + ask 2 + ask 3

/-- The next frame of a lane. -/
def sendFrame (p m : Nat) (s : State) : State :=
  let x := s.port p
  let t := tget {} x.tx m
  let ts := x.tstate m
  let f := if ts = 1 then s.takeFree else (0, s)
  let ctrl := ts * 2 ^ 28 + m * 2 ^ 24 + (if ts = 3 then x.cdown - 1 else 0) * 2 ^ 20 + (if ts = 1 then tapWish f.1 else 0) + t.cstat
  let r := prbsFill 2656 t.fill
  f.2.setPort p { x with tx := tset {} x.tx m { t with fill := r.2, frame := trainFrame ctrl r.1 } }

/-- Training frames are sent in this state. -/
def Port.trains (x : Port) : Bool :=
  x.st == .detect || x.st == .eq || ((x.st == .align || x.st == .recover) && !(x.aligning && x.cdown == 0))

/-- A cycle of the clock at MHz on a port in training: a lane carries 128 bits a nanosecond, and after 2,720 of them the
next frame is sent on every lane. -/
def trainTick (mhz p : Nat) (s : State) : State :=
  let x := s.port p
  if !x.trains then s
  else if x.sendAcc + 128000 < 2720 * mhz then s.setPort p { x with sendAcc := x.sendAcc + 128000 }
  else
    let s := s.setPort p { x with sendAcc := x.sendAcc + 128000 - 2720 * mhz }
    let s := (List.range 8).foldl (fun s m => sendFrame p m s) s
    streamStart p (s.modPort p fun x => { x with cdown := x.cdown - 1 })

/-- The training frames of a cycle. -/
def tickPorts (s : State) : State :=
  s.ports.foldl (fun s e => trainTick (50 * opClock (s.rf Reg.CLK_STATUS 31 28)) e.1 s) s

/-- LINK_DETECT_RETRY: markers are looked for again. -/
def detectRetry (p : Nat) (s : State) : State := if (s.port p).st = .detect then toDetect p s else s

def execLinkDetectRetry (p : PortNo) (s : State) : Res := .next (detectRetry p.val s)

/-- LINK_TRAIN_TIMEOUT: a half that passed EQ is used; else the port goes DOWN (R296, R299). -/
def trainTimeout (p : Nat) (s : State) : State :=
  let x := s.port p
  match x.st with
  | .eq =>
    match x.settled (s.rf (Reg.port p 8) 8 8 == 1) true with
    | some c => settleLanes p c.1 c.2 s
    | none => portDown p 2 s
  | .align => portDown p 2 s
  | .ident => portDown p 2 s
  | .recover => portDown p 5 s
  | _ => s

def execLinkTrainTimeout (p : PortNo) (s : State) : Res := .next (trainTimeout p.val s)

/-- LINK_DOWN_IDLE_EXPIRY: the port trains again on its own, or is DISABLED when it is not enabled (R296, R319). -/
def idleExpiry (p : Nat) (s : State) : State :=
  if (s.port p).st ≠ .down then s
  else if ¬ s.linkEnabled p then s.modPort p fun x => { x with st := .disabled }
  else if s.linkAuto then toDetect p s
  else s

def execLinkDownIdleExpiry (p : PortNo) (s : State) : Res := .next (idleExpiry p.val s)

/-- LINK_LOSS_OF_SIGNAL: on a lane in use for 1 µs (R315). -/
def lossOfSignal (p lane : Nat) (s : State) : State :=
  let x := s.port p
  let m := if x.rev then 7 - lane else lane
  if (x.st = .active ∨ x.st = .degraded ∨ x.st = .recover) ∧ x.base ≤ m ∧ m < x.base + x.width then portDown p 1 s else s

def execLinkLossOfSignal (p : PortNo) (lane : Fin 8) (s : State) : Res := .next (lossOfSignal p.val lane.val s)

/-- A port that carries traffic goes to RECOVER. -/
def toRecover (p : Nat) (s : State) : State := if s.linkUp p then enterRecover p s else s

/-- LNK_CTRL as written: enabled ports leave DISABLED once ports train, others stop (R296, R315, R319, R372). -/
def linkControl (s : State) : State :=
  (List.range 12).foldl (fun s p =>
    let st := (s.port p).st
    if s.linkEnabled p then (if st = .disabled ∧ s.linkAuto ∧ s.portsOn then toDetect p s else s)
    else if st = .active ∨ st = .degraded ∨ st = .recover then portDown p 6 s
    else if st = .down ∨ st = .disabled then s
    else s.modPort p fun x => { x with st := .disabled, width := 0, lanes := [], aligning := false, cdown := 0 }) s

/-- PORT_RETRAIN, once ports train: RECOVER, or DETECT from DOWN or DISABLED (R320, R372). -/
def retrain (p : Nat) (s : State) : State :=
  if ¬ s.portsOn then s
  else match (s.port p).st with
    | .down => toDetect p s
    | .disabled => toDetect p s
    | _ => enterRecover p s

def execPortRetrain (p : PortNo) (s : State) : Res := .next (s.bar0 (retrain p.val))

/-! ### Identification (R318) -/

/-- A multi-module program is admitted. -/
def multiAdmitted (s : State) : Bool := s.slots.any fun e => e.2.state != .empty && decide (1 < e.2.modules)

/-- The port carries traffic from now on, with the initial credits (R306). -/
def toActive (p : Nat) (s : State) : State :=
  s.modPort p fun x => { x with st := if x.width = 8 then .active else .degraded, credit := [(0, 128), (1, 128), (2, 32), (3, 32), (4, 8)] }

/-- The peer's IDENT agrees with this module as it is now: tag, shape and validity, rank and mate. An EXTERNAL port leads
out of the domain and asks for none of them (log entry 36). -/
def identMatches (s : State) (p : Nat) : Bool :=
  s.external p || (s.port p).peerDom == ((s.reg Reg.LNK_DTAG).toNat, shapeRec s) && (s.port p).peer == some (mate p, s.neighbourRank p)

/-- A port may carry traffic. -/
def mayCarry (s : State) (p : Nat) : Bool := identMatches s p && (s.rf Reg.LNK_SHAPE 31 31 == 1 || s.external p)

/-- IDENT of the peer: the port carries traffic or stands by; a mismatch is logged (R318). -/
def identIn (p : Nat) (b : Bytes) (s : State) : State :=
  let s := s.modPort p fun x => { x with peer := some (leAt b 1 1, fld (leAt b 2 2) 9 0), peerDom := (leAt b 4 4, leAt b 8 2) }
  if (s.port p).st ≠ .ident then s
  else if mayCarry s p ∧ ¬ multiAdmitted s then toActive p s
  else
    let s := if identMatches s p then s
      else s.log1 Ev.LINK_DOWN (Src.port p)
        (leBytes p 1 ++ leBytes 4 1 ++ leBytes 4 1 ++ leBytes 0 1 ++ leBytes (((s.port p).expect + 4095) % 4096) 2 ++ leBytes 0 2 ++ leBytes (fld (leAt b 2 2) 9 0) 2)
    s.modPort p fun x => { x with st := .standby }

/-- At an admission the ports in STANDBY whose peers match carry traffic (R318). -/
def portsAdmit (s : State) : State :=
  (List.range 12).foldl (fun s p => if (s.port p).st = .standby ∧ mayCarry s p then toActive p s else s) s

/-- FAILOVER of the peer over port p: the port that mates with the lost one resends (R316). -/
def failoverIn (b : Bytes) (s : State) : State :=
  let lost := mate (leAt b 12 1 % 12)
  let last := leAt b 10 2 % 4096
  if (s.port lost).failing then failOver lost last s else s.modPort lost fun x => { x with lostSeq := some last }

end Sys2Proof.Machine
end

