-- ==== Sys2Proof/Machine/Ream.lean ====
section
/-!
DEFINITION. The reduction engines: sending (R329, R337, R338, R340), rank-ordered sums (R330, R331), discards (R335),
late-comers and timeouts (R334).
-/
namespace Sys2Proof.Machine

/-! ### Places (R325, R326) -/

/-- Physical address behind an address of a region of the plan. -/
def physOf (s : State) (k va : Nat) : Nat :=
  match translate s k va .rd with
  | .pa a => a
  | .fault _ =>
    match translate s k va .wr with
    | .pa a => a
    | .fault _ =>
      match translate s k va .acc with
      | .pa a => a
      | .fault _ => 0

/-- A sheet of a region as the engine reads it, verified levee-local (R406), with its check. -/
def regionRead (k va : Nat) (s : State) : State × Bytes × Word :=
  let s := xlatWalk k va s
  let pa := physOf s k va
  let s := hbmVerify pa (hbmRead pa false s)
  (s, s.hbmSheet pa, s.hbmCheck pa)

/-- Sheets written into a region, each with a fresh check (R404). -/
def regionWrite (k va : Nat) (data : Bytes) (s : State) : State :=
  ((records 256 data).zipIdx).foldl (fun s x => (xlatWalk k (va + 256 * x.2) s).hbmPut (physOf s k (va + 256 * x.2)) x.1 (crc32c x.1)) s

/-- Position of an owned slice among the owned ones. -/
def ordinal (s : State) (r : Ream) (i : Nat) : Nat := (owned s r).idxOf i

/-- S_E: sheets of the FP32 accumulators of a slice. -/
def Ream.accSheets (r : Ream) : Nat := r.elems * 4 / 256

/-- Accumulators of an owned slice in RM_STAGE, of its sum or of its remainder. Slices lie there in ordinal order, each with
its accumulators before its staging slots, and the remainders lie after all sums (log entry 76). -/
def accVa (s : State) (r : Ream) (i : Nat) (rem : Bool) : Nat :=
  let per (c : Nat) : Nat := r.accSheets + (s.domN - 1) * c
  let o := ordinal s r i
  r.stageVa + 256 * (if rem then (owned s r).length * per r.contrib + o * per 128 else o * per r.contrib)

/-- The staging slot of a contribution: by rank, the owner's own left out, then by sheet. -/
def slotVa (s : State) (r : Ream) (i q m : Nat) (rem : Bool) : Nat :=
  accVa s r i rem + 256 * (r.accSheets + (if q < s.rank then q else q - 1) * (if rem then 128 else r.contrib) + m)

/-- Elements of a slice in the source: BF16, or FP32. -/
def srcElems (s : State) (k : Nat) (r : Ream) (i : Nat) : List Nat :=
  unpackElems r.fmt ((List.range 128).flatMap fun m => s.hbmSheet (physOf s k (r.src + 32768 * i + 256 * m)))

/-- The sheets of a slice are read, verified, when its first sparse sheet is built, and each again for its remainder (R406; log
entry 174). -/
def srcRead (k : Nat) (r : Ream) (i m : Nat) (rem : Bool) (s : State) : State :=
  let one (m : Nat) (s : State) : State := let pa := physOf s k (r.src + 32768 * i + 256 * m); hbmVerify pa (hbmRead pa false s)
  if rem then one m s else if m = 0 then (List.range 128).foldl (fun s m => one m s) s else s

/-! ### Thinning (R337, R338) -/

/-- Magnitude order of a BF16 value: NaN above every number. -/
def bfMag (v : Nat) : Nat := min 0x7F81 (v % 0x8000)

/-- Indices of the k largest magnitudes, the lower index first among equals, in ascending order. -/
def largest (k : Nat) (g : List Nat) : List Nat :=
  let ranked := (g.zipIdx).mergeSort fun a b => decide (bfMag b.1 < bfMag a.1) || (bfMag a.1 == bfMag b.1 && decide (a.2 ≤ b.2))
  ((ranked.take k).map (·.2)).mergeSort (fun a b => decide (a ≤ b))

/-- Sparse sheet m of a slice. -/
def sparseSheet (r : Ream) (g : List Nat) (m : Nat) : Bytes :=
  (((largest r.picks g).drop (64 * m)).take 64).flatMap fun e => leBytes e 2 ++ leBytes (g.getD e 0) 2

/-- Remainder sheet m of a slice: 0 for the selected elements. -/
def remainderSheet (r : Ream) (g : List Nat) (m : Nat) : Bytes :=
  let sel := largest r.picks g
  (rangeFrom (128 * m) 128).flatMap fun e => leBytes (if sel.contains e then 0 else g.getD e 0) 2

/-- This rank's contribution sheet of a slice, with the check it carries: a dense sheet keeps the check it has in HBM;
the engine computes those of the sheets it builds. -/
def ownSheet (k : Nat) (r : Ream) (i m : Nat) (rem : Bool) (s : State) : State × Bytes × Word :=
  if r.thin then
    let g := srcElems s k r i
    let d := if rem then remainderSheet r g m else sparseSheet r g m
    (srcRead k r i m rem s, d, crc32c d)
  else regionRead k (r.src + 32768 * i + 256 * m) s

/-! ### Sending (R329) -/

/-- Slices in the order of their owners (r + 1) mod N … (r + N − 1) mod N. -/
def sendOrder (s : State) (r : Ream) : List Nat :=
  (rangeFrom 1 (s.domN - 1)).flatMap fun d => (List.range r.nSlices).filter fun i => r.ownerOf s.domN i == (s.rank + d) % s.domN

/-- Contribution number n: slice, sheet, of the remainder. -/
def nthSend (s : State) (r : Ream) (n : Nat) : Option (Nat × Nat × Bool) :=
  let o := sendOrder s r
  let c := r.contrib
  if n < o.length * c then (o[n / c]?).map fun i => (i, n % c, false)
  else if r.thin then
    let n := n - o.length * c
    (o[n / 128]?).map fun i => (i, n % 128, true)
  else none

/-- The engine sends for a slot: until its program is PREEMPTED, and again once it runs (R336). -/
def State.sends (s : State) (k : Nat) : Bool := (s.slot k).state == .running || (s.slot k).state == .stopping

/-- A levee-local read of a region takes a slot of its controller, once it may have one (R158). -/
def localRead (k va : Nat) (s : State) (act : State → State) : State :=
  let pa := physOf s k va
  if localSlot s pa then act (s.takeLocal pa) else s

/-- The ream has left FILL in this span and was not abandoned. -/
def Ream.scattering (r : Ream) : Bool := r.red && (r.st == .scatter || r.st == .summed || r.st == .gather || r.st == .done)

/-- REAM_SCATTER_SEND: the next contribution is sent; its source is read as levee-local traffic. -/
def scatterSend (k j : Nat) (s : State) : State :=
  match s.ream? k j with
  | none => s
  | some r =>
    if r.scattering ∧ s.sends k then
      match nthSend s r r.sendPos with
      | none => s
      | some (i, m, rem) =>
        localRead k (r.src + 32768 * i + 256 * m) s fun s =>
          let x := ownSheet k r i m rem s
          let s := x.1.setReam k j { r with sendPos := r.sendPos + 1 }
          let o := r.ownerOf s.domN i
          let va := r.sumVa + i / s.domN * r.sumBytes
          originate k 2 o ((s.slot k).span.toNat % 2) va (r.fmt * 16) (j * 2 ^ 20 + (if rem then 131072 else 0) + 128 * i + m) x.2.1 x.2.2 s
    else s

def execReamScatterSend (k : SlotNo) (j : Fin 4096) (s : State) : Res := .next (scatterSend k.val j.val s)

/-! ### Sums (R330, R331) -/

/-- An FP32 accumulator takes a contribution (R56, R330). -/
def accTake (acc v : Nat) : Nat := accElem 0xA acc v

/-- A BF16 value widened exactly. -/
def bfWide (v : Nat) : Nat := v * 65536

/-- A run of sheets of a region as the engine reads them. -/
def regionRun (k va n : Nat) (s : State) : State × Bytes :=
  (List.range n).foldl (fun (x : State × Bytes) m => let y := regionRead k (va + 256 * m) x.1; (y.1, x.2 ++ y.2.1)) (s, [])

/-- A dense sheet is added to its accumulators, which the lowest rank's finds at +0: two sheets of them for BF16, one for
FP32. -/
def addDense (k base fmt m : Nat) (first : Bool) (data : Bytes) (s : State) : State :=
  let vs := (unpackElems fmt data).map fun v => if fmt = 0x8 then bfWide v else v
  let va := base + 4 * vs.length * m
  let x := if first then (s, List.replicate (4 * vs.length) 0) else regionRun k va (4 * vs.length / 256) s
  regionWrite k va (packElems 0xA ((unpackElems 0xA x.2).zipWith accTake vs)) x.1

/-- The entries of a sparse sheet: index and value. -/
def sparseEntries (data : Bytes) : List (Nat × Nat) := (records 4 data).map fun x => (leAt x 0 2 % 16384, bfWide (leAt x 2 2))

/-- A sparse sheet is added, sheet by sheet of the accumulators it names. -/
def addSparse (k base : Nat) (data : Bytes) (s : State) : State :=
  let es := sparseEntries data
  ((es.map fun e => e.1 / 64).eraseDups).foldl (fun s n =>
    let x := regionRead k (base + 256 * n) s
    let acc := (es.filter fun e => e.1 / 64 == n).foldl (fun (a : List Nat) e => a.modify (e.1 % 64) fun v => accTake v e.2) (unpackElems 0xA x.2.1)
    regionWrite k (base + 256 * n) (packElems 0xA acc) x.1) s

/-- The next contribution of a part in rank order: dense sheets are ordered one by one, a thinned slice's sparse
sheets as a whole. A rank's own contributions can be taken once the ream has left FILL. -/
def nextAdd (s : State) (r : Ream) (x : SliceSt) (rem : Bool) : Option (Nat × Nat) :=
  let n := s.domN
  let have_ (q m : Nat) : Bool := if q = s.rank then r.scattering else x.staged.contains (q, m, rem)
  let count (m : Nat) : Nat := (x.added.filter fun a => a.2.1 == m && a.2.2 == rem).length
  if r.thin && !rem then
    let done := (x.added.filter fun a => !a.2.2).length
    let q := done / r.contrib
    let m := done % r.contrib
    if q < n ∧ have_ q m then some (q, m) else none
  else
    ((List.range 128).find? fun m => decide (count m < n) && have_ (count m) m).map fun m => (count m, m)

/-- The turn of rank q's sheet m has come: every sheet before it has been added (R331). -/
def ownTurn (r : Ream) (x : SliceSt) (q m : Nat) (rem : Bool) : Bool :=
  if r.thin && !rem then (x.added.filter fun a => !a.2.2).length == q * r.contrib + m
  else (x.added.filter fun a => a.2.1 == m && a.2.2 == rem).length == q

/-- A part of a slice is complete. -/
def partDone (s : State) (r : Ream) (x : SliceSt) (rem : Bool) : Bool :=
  decide ((x.added.filter fun a => a.2.2 == rem).length = s.domN * (if rem then 128 else r.contrib))

/-- Accumulators of a thinned slice start at the remainder of the armed span before (R338). -/
def startAcc (k : Nat) (r : Ream) (i : Nat) (s : State) : State :=
  let x := regionRun k (r.remVa + 32768 * ordinal s r i) 128 s
  regionWrite k (accVa s r i false) (packElems 0xA ((unpackElems 0x8 x.2).map bfWide)) x.1

/-- Accumulators as elements of a format. -/
def accOut (fmt : Nat) (acc : Bytes) : Bytes :=
  packElems fmt ((unpackElems 0xA acc).map fun v => if fmt = 0x8 then (cvtPlain 0x8 .rne (unpack fp32 v)).1 else v)

/-- A part of a slice whose additions are complete is written to its region: RM_SUM, or RM_REM. -/
def partOut (k : Nat) (r : Ream) (i : Nat) (rem : Bool) (s : State) : State :=
  let x := regionRun k (accVa s r i rem) r.accSheets s
  if rem then regionWrite k (r.remVa + 32768 * ordinal s r i) (accOut 0x8 x.2) x.1
  else regionWrite k (r.sumVa + ordinal s r i * r.sumBytes) (accOut r.ofmt x.2) x.1

/-- Microseconds of a number of grid cycles at the clock in force. -/
def usOf (s : State) (cycles : Nat) : Nat := cycles / (50 * opClock (s.rf Reg.CLK_STATUS 31 28))

/-- A slice whose parts are complete: RM_SUM is written, then RM_REM, and held reads follow (R330, R338). -/
def sliceFinish (k j i us : Nat) (s : State) : State :=
  match s.ream? k j with
  | none => s
  | some r =>
    let x := tget ({} : SliceSt) r.slices i
    let s := if !x.summed && partDone s r x false then
        let s := partOut k r i false s
        let s := s.addPair Reg.RED_WAIT_LO us
        reamAdvance (s.setReam k j { r with slices := tset {} r.slices i { x with summed := true } }) k j
      else s
    match s.ream? k j with
    | none => s
    | some r =>
      let x := tget ({} : SliceSt) r.slices i
      if r.thin && x.summed && !x.remDone && partDone s r x true then
        let s := partOut k r i true s
        reamAdvance (s.setReam k j { r with slices := tset {} r.slices i { x with remDone := true } }) k j
      else s

/-- The state of a ream is read in the levee SRAM and written anew (R408; log entry 161). -/
def reamWord (k j : Nat) (s : State) : State :=
  (s.eccRead placeLevee (k * 256 + j) (Src.levee 0) 0 0 false (some k)).eccWrite placeLevee (k * 256 + j)

/-- One contribution is added, verified first (R406). -/
def addOne (k j i q m : Nat) (rem : Bool) (us : Nat) (data : Bytes) (chk : Word) (s : State) : State :=
  match s.ream? k j with
  | none => s
  | some r =>
    let x := tget ({} : SliceSt) r.slices i
    let s := adderVerify (physOf s k (r.sumVa + ordinal s r i * r.sumBytes)) data chk s
    let s := if r.thin && !rem then
        addSparse k (accVa s r i false) data (if x.added.any fun a => !a.2.2 then s else startAcc k r i s)
      else addDense k (accVa s r i rem) r.fmt m (q == 0) data s
    let x : SliceSt := { x with
      added := x.added ++ [(q, m, rem)],
      staged := x.staged.filter fun c => !(c.1 == q && c.2.1 == m && c.2.2 == rem),
      started := some (x.started.getD s.ticks) }
    sliceFinish k j i us ((reamWord k j s).setReam k j { r with slices := tset {} r.slices i x })

/-- A contribution whose turn has come is taken, from the source or from its staging slot, and added: levee-local
traffic. -/
def addStaged (k j i q m : Nat) (rem : Bool) (us : Nat) (s : State) : State :=
  match s.ream? k j with
  | none => s
  | some r =>
    let va := if q = s.rank then r.src + 32768 * i + 256 * m else slotVa s r i q m rem
    localRead k va s fun s =>
      let d := if q = s.rank then ownSheet k r i m rem s else regionRead k va s
      addOne k j i q m rem us d.2.1 d.2.2 d.1

/-- REAM_STAGED_ADD: the next contribution of a slice in rank order is added, those of its sum first. -/
def stagedAdd (k j i us : Nat) (s : State) : State :=
  match s.ream? k j with
  | none => s
  | some r =>
    if (owned s r).contains i ∧ r.red ∧ (r.st = .fill ∨ r.scattering) then
      let x := tget ({} : SliceSt) r.slices i
      match nextAdd s r x false with
      | some (q, m) => addStaged k j i q m false us s
      | none =>
        if r.thin then
          match nextAdd s r x true with
          | some (q, m) => addStaged k j i q m true us s
          | none => s
        else s
    else s

def execReamStagedAdd (k : SlotNo) (j : Fin 4096) (i : Fin 2048) (us : BitVec 32) (s : State) : Res :=
  .next (stagedAdd k.val j.val i.val us.toNat s)

/-! ### Arrivals (R328, R331, R335) -/

/-- A contribution is discarded (R335). -/
def discard (s : State) : State := (s.setBits Reg.RED_STATUS 4).bump Reg.RED_DISCARD_COUNT 1

/-- A contribution goes to its staging slot with its check, for a slice of the span under way or of the next armed one. -/
def stage (k j i q m : Nat) (rem early : Bool) (data : Bytes) (chk : Word) (s : State) : State :=
  match s.ream? k j with
  | none => s
  | some r =>
    let s := s.hbmPut (physOf s k (slotVa s r i q m rem)) data chk
    let put (t : Tbl SliceSt) : Tbl SliceSt :=
      let x := tget ({} : SliceSt) t i
      tset {} t i { x with staged := x.staged ++ [(q, m, rem)], started := some (x.started.getD s.ticks) }
    s.setReam k j (if early then { r with next := put r.next } else { r with slices := put r.slices })

/-- An ACC-WRITE arrives at its owner: discarded, kept for the ream's next armed span, staged, or added at once when its
turn has come. A discard by an abandoned ream is none of the cases of R335 (log entry 156). -/
def accArrive (k q j sheet fmt sp : Nat) (data : Bytes) (chk : Word) (s : State) : State :=
  match s.ream? k j with
  | none => discard s
  | some r =>
    let rem := r.thin && decide (131072 ≤ sheet)
    let n := if rem then sheet - 131072 else sheet
    let i := n / 128
    let m := n % 128
    let bad := !r.red || !(owned s r).contains i || (!rem && decide (r.contrib ≤ m)) || fmt != r.fmt
    let early := r.st == .idle || sp != (s.slot k).span.toNat % 2
    let x := tget ({} : SliceSt) (if early then r.next else r.slices) i
    if bad ∨ x.staged.contains (q, m, rem) ∨ x.added.contains (q, m, rem) then discard s
    else if early then stage k j i q m rem true data chk s
    else if r.st = .abandoned then s
    else if ownTurn r x q m rem then
      addOne k j i q m rem (usOf s (s.ticks - x.started.getD s.ticks)) data chk s
    else stage k j i q m rem false data chk s

/-- A WRITE of another rank lands in a gather region: its sheet has arrived, for the span whose parity it names (R313,
R340). -/
def gatherArrive (k va sp : Nat) (s : State) : State :=
  (s.redSlot k).reams.foldl (fun s e =>
    match s.ream? k e.1 with
    | none => s
    | some r =>
      if !r.gath then s
      else if sp ≠ (s.slot k).span.toNat % 2 then s.setReam k e.1 { r with early := r.early ++ [va] }
      else if r.st = .idle ∨ r.st = .abandoned then s
      else
        match gatherSheet s k r va with
        | some g => if r.arrived.contains g then s else reamAdvance (s.setReam k e.1 { r with arrived := g :: r.arrived }) k e.1
        | none => s) s

/-! ### Gathering (R340) -/

/-- Gather sheet number n: destination rank and sheet of RM_GVA. -/
def nthGather (s : State) (r : Ream) (n : Nat) : Option (Nat × Nat) :=
  let l := owned s r
  let per := l.length * r.gslice
  if per = 0 ∨ s.domN - 1 ≤ n / per then none
  else (l[n % per / max 1 r.gslice]?).map fun i => ((s.rank + 1 + n / per) % s.domN, i * r.gslice + n % per % max 1 r.gslice)

/-- REAM_GATHER_SEND: the next sheet of the owned gather slices is sent. -/
def gatherSend (k j : Nat) (s : State) : State :=
  match s.ream? k j with
  | none => s
  | some r =>
    match if (r.st == .gather || r.st == .done) && r.gath && s.sends k then nthGather s r r.gatherPos else none, r.gbase with
    | some (o, g), some b =>
      localRead k (b + 256 * g) s fun s =>
        let x := regionRead k (b + 256 * g) s
        originate k 1 o ((s.slot k).span.toNat % 2) (b + 256 * g) 0 0 x.2.1 x.2.2 (x.1.setReam k j { r with gatherPos := r.gatherPos + 1 })
    | _, _ => s

def execReamGatherSend (k : SlotNo) (j : Fin 4096) (s : State) : Res := .next (gatherSend k.val j.val s)

/-! ### Late-comers (R334, R343) -/

/-- Ranks some sheet of which a slice's sum has not taken. -/
def missing (s : State) (r : Ream) (x : SliceSt) : List Nat :=
  (List.range s.domN).filter fun q => decide ((x.added.filter fun a => a.1 == q && !a.2.2).length < r.contrib)

/-- The slice's timer runs: its first contribution came, and it is not summed. -/
def waitingSlice (s : State) (r : Ream) (i : Nat) : Bool :=
  let x := tget ({} : SliceSt) r.slices i
  (owned s r).contains i && x.started.isSome && !x.summed && r.st != .abandoned

/-- REAM_LATE: RT_LATE has passed; logged once per ream and span. -/
def reamLate (k j i : Nat) (s : State) : State :=
  match s.ream? k j with
  | none => s
  | some r =>
    if waitingSlice s r i ∧ ¬ r.lateLogged then
      let m := (missing s r (tget {} r.slices i)).headD 0
      let s := ((s.setReam k j { r with lateLogged := true }).setBits Reg.RED_STATUS 1).bump Reg.RED_LATE_COUNT 1
      s.log1 Ev.REAM_LATE (Src.rank s.rank)
        (leBytes j 2 ++ leBytes i 2 ++ leBytes m 2 ++ leBytes k 2 ++ leBytes (s.slot k).span.toNat 4)
    else s

def execReamLate (k : SlotNo) (j : Fin 4096) (i : Fin 2048) (s : State) : Res := .next (reamLate k.val j.val i.val s)

/-- REAM_TIMEOUT: RT_TIMEOUT has passed; the ream is abandoned, and its held reads are released. -/
def reamTimeout (k j i : Nat) (s : State) : State :=
  match s.ream? k j with
  | none => s
  | some r =>
    if waitingSlice s r i then
      let m := missing s r (tget {} r.slices i)
      let s := ((s.setReam k j { r with st := .abandoned }).setBits Reg.RED_STATUS 2).bump Reg.RED_TIMEOUT_COUNT 1
      s.logStop Ev.REAM_TIMEOUT (Src.rank s.rank)
        (leBytes j 2 ++ leBytes i 2 ++ leBytes (m.headD 0) 2 ++ leBytes m.length 2 ++ leBytes (s.slot k).span.toNat 4 ++ leBytes k 1) (some k)
    else s

def execReamTimeout (k : SlotNo) (j : Fin 4096) (i : Fin 2048) (s : State) : Res := .next (reamTimeout k.val j.val i.val s)

/-- Every ream armed in the span is DONE or abandoned, and nothing is left to originate (R327, R329, R334). -/
def reamsSettled (s : State) (k : Nat) : Bool :=
  (s.redSlot k).reams.all fun e =>
    let r := e.2
    match r.st with
    | .idle => true
    | .abandoned => true
    | .done => (nthSend s r r.sendPos).isNone && (!r.gath || (nthGather s r r.gatherPos).isNone)
    | _ => false

end Sys2Proof.Machine
end

