-- ==== Sys2Proof/Machine/Tide.lean ====
section
/-!
DEFINITION. The local conditions of a span boundary (R251) and the tide of the domain (R311–R314).
-/
namespace Sys2Proof.Machine

/-! ### Local conditions (R251) -/

/-- The tile has arrived at the tide or ended, or lies in a polder that issues nothing (R252). -/
def tileArrived (s : State) (t : Nat) : Bool :=
  s.polder (polderOf t) != 0 ||
    match (s.tile t).core with
    | .arrived _ _ => true
    | .ended => true
    | _ => false

/-- An array has no stream left to commit and no power change under way. -/
def arrayStill (a : ArraySt) : Bool :=
  a.streams.isEmpty && match a.pwr with
    | .entering _ _ => false
    | .exiting _ => false
    | _ => true

/-- A tile-store bank has no change under way. -/
def bankStill (b : Bank) : Bool :=
  b.req.isNone && (match b.pwr with
    | .entering _ _ => false
    | .exiting _ => false
    | _ => true)

/-- Every operation issued before the tides has completed and every delayed effect is in force. -/
def opsDone (s : State) : Bool :=
  effectsDone s && meshEmpty s && s.felt.inj.isEmpty && s.felt.takes.isEmpty && s.felt.gathers.isEmpty &&
    s.tiles.all fun e => arrayStill e.2.arr0 && arrayStill e.2.arr1 &&
      e.2.banks.all fun b => bankStill b.2

/-- Queues are empty and no pulp phase is active. -/
def queuesEmpty (s : State) : Bool := (s.que.q.all fun e => e.2.isEmpty) && s.pulp.all fun e => !e.2.active

/-- The local conditions of R251 but for the equal counts. -/
def localReady (k : Nat) (s : State) : Bool :=
  (s.slot k).coded.all (tileArrived s) && queuesEmpty s && opsDone s

/-! ### The tree (R311) -/

/-- Dimension and direction of the parent of a rank; none for the root. -/
def parentHop (s : State) (r : Nat) : Option (Nat × Bool) :=
  ([2, 1, 0].find? fun d => s.coord r d != 0).map fun d =>
    let k := (s.dim d - s.coord r d) % s.dim d
    (d, decide (k ≤ s.dim d - k))

/-- Rank next to this module. -/
def nextRank (s : State) (d : Nat) (plus : Bool) : Nat := s.neighbourRank (if plus then d else d + 3)

/-- The port for TIDE flits in a direction: member 0, or member 1 where that one is not up. -/
def tidePort (s : State) (d : Nat) (plus : Bool) : Nat :=
  let p := if plus then d else d + 3
  if s.linkUp p then p else if s.linkUp (p + 6) then p + 6 else p

/-- Directions that lead to the children, by the number of their member-0 port. -/
def childDirs (s : State) : List Nat :=
  (List.range 6).filter fun p => parentHop s (s.neighbourRank p) == some (portDim p, !portPlus p)

/-- The direction that leads to the parent. -/
def parentDir (s : State) : Option Nat := (parentHop s s.rank).map fun e => if e.2 then e.1 else e.1 + 3

/-! ### Records (R312) -/

def tideRec (kind out round span sent recv cause : Nat) : Bytes :=
  leBytes kind 1 ++ leBytes out 1 ++ leBytes round 2 ++ leBytes span 4 ++ leBytes sent 8 ++ leBytes recv 8 ++ leBytes cause 1

def sendTide (dir : Nat) (b : Bytes) (s : State) : State := linkPut (tidePort s (portDim dir) (portPlus dir)) (hopFlit 5 b) s

/-- The program whose spans the tide closes: admitted for several modules, started, and not over; the one on the grid
before one that is PREEMPTED (log entry 154). -/
def tideSlot (s : State) : Option Nat :=
  let many := s.slots.filter fun e => decide (1 < e.2.modules)
  ((many.find? fun e => e.2.state == .running || e.2.state == .stopping || e.2.state == .restoring).orElse fun _ =>
    many.find? fun e => e.2.state == .preempted).map (·.1)

/-- The tide of a slot's program. -/
abbrev State.tideOf (s : State) (k : Nat) : Tide := (s.slot k).tide

/-- ABORT to every neighbour in the tree but one (R314). -/
def sendAbort (skip : Option Nat) (cause round span : Nat) (s : State) : State :=
  let s := match parentDir s with
    | some d => if skip = some d then s else sendTide d (tideRec 1 3 round span 0 0 cause) s
    | none => s
  (childDirs s).foldl (fun s d => if skip = some d then s else sendTide d (tideRec 2 3 round span 0 0 cause) s) s

/-- The program of slot k is to end with an event, wherever it stands: a stop or a restoration under way leads there, and
one that is PREEMPTED ends where it is (R314, R360). -/
def endWhere (k ev : Nat) (code : BitVec 16) (seq : Option Nat) (s : State) : State :=
  let p := s.slot k
  match p.state with
  | .running => beginEnd k ev code seq s
  | .stopping => if p.ending.isSome then s else stopCheck (s.setSlot k { p with ending := some (ev, code, seq) })
  | .restoring => if p.ending.isSome then s else s.setSlot k { p with ending := some (ev, code, seq) }
  | .preempted => endStored k ev code seq s
  | _ => s

/-- The tide is aborted: recorded with a cause, passed on with the cause it began with, and the program ends without a
boundary (R314). -/
def tideAbort (k cause first port : Nat) (skip : Option Nat) (s : State) : State :=
  let p := s.slot k
  let s := (s.setBits Reg.LNK_STATUS 8).bump Reg.LNK_TIDETO_COUNT 1
  let r := logTry s Ev.TIDE_TIMEOUT (Src.rank s.rank)
    (leBytes cause 1 ++ leBytes port 1 ++ leBytes p.tide.round 2 ++ leBytes p.span.toNat 4) (some k)
  endWhere k 3 Ev.TIDE_TIMEOUT r.2 (sendAbort skip first p.tide.round p.span.toNat r.1)

/-! ### Rounds (R313) -/

/-- Own counts of the span. -/
def ownSent (s : State) (k : Nat) : Nat := tget 0 (s.tideOf k).sent ((s.slot k).span.toNat % 2)
def ownRecv (s : State) (k : Nat) : Nat := tget 0 (s.tideOf k).recv ((s.slot k).span.toNat % 2)

/-- The module arrives once its local conditions hold and its engines have nothing left to originate. -/
def noteArrival (k : Nat) (s : State) : State :=
  if (s.tideOf k).arrived then s
  else if (s.slot k).state == .running && localReady k s && reamsSettled s k then
    s.modTide k fun d => { d with arrived := true, arrivedAt := s.ticks }
  else s

/-- UP of the current round came from every child. -/
def childrenIn (s : State) (k : Nat) : Bool :=
  (childDirs s).all fun d => (s.tideOf k).ups.any fun u => u.1 == (s.tideOf k).round && u.2.1 == d

/-- PASS: the exchange of R251 is complete. -/
def tidePass (k : Nat) (s : State) : State :=
  let us := min 0xFFFF (usOf s (s.ticks - (s.tideOf k).arrivedAt))
  let s := s.setReg Reg.LNK_TIDE_LAST (BitVec.ofNat 32 (((s.tideOf k).round + 1) % 65536 * 65536 + us))
  s.modTide k fun d => { d with passed := true }

/-- A decision goes down the tree and takes effect here. -/
def tideDown (out : Nat) (k : Nat) (s : State) : State :=
  let span := (s.slot k).span.toNat
  let s := (childDirs s).foldl (fun s d => sendTide d (tideRec 2 out (s.tideOf k).round span 0 0 0) s) s
  if out = 1 then tidePass k s else s.modTide k fun d => { d with recount := true }

/-- TIDE_UP_SEND: UP to the parent, or the root's decision. -/
def tideUp (s : State) : State :=
  match tideSlot s with
  | none => s
  | some k =>
    let s := noteArrival k s
    let d := s.tideOf k
    if d.arrived ∧ ¬ d.upSent ∧ ¬ d.recount ∧ ¬ d.passed ∧ childrenIn s k then
      let span := (s.slot k).span.toNat
      let now := d.ups.filter fun u => u.1 == d.round
      let sent := now.foldl (fun n u => n + u.2.2.1) (ownSent s k)
      let recv := now.foldl (fun n u => n + u.2.2.2) (ownRecv s k)
      let s := s.modTide k fun d => { d with upSent := true }
      match parentDir s with
      | some e => sendTide e (tideRec 1 0 d.round span sent recv 0) s
      | none => if sent = recv then tideDown 1 k s else if recv < sent then tideDown 2 k s else tideAbort k 2 2 0xFF none s
    else s

def execTideUpSend (s : State) : Res := .next (tideUp s)

/-- TIDE_RECOUNT_EXPIRY: the next round. -/
def recountExpiry (s : State) : State :=
  match tideSlot s with
  | none => s
  | some k =>
    if (s.tideOf k).recount then s.modTide k fun d => { d with recount := false, upSent := false, round := d.round + 1 } else s

def execTideRecountExpiry (s : State) : Res := .next (recountExpiry s)

/-- TIDE_TIMEOUT: arrived, and no PASS within LT_TIMEOUT. -/
def tideTimeout (s : State) : State :=
  match tideSlot s with
  | none => s
  | some k =>
    let s := noteArrival k s
    if (s.tideOf k).arrived ∧ ¬ (s.tideOf k).passed then tideAbort k 0 0 0xFF none s else s

def execTideTimeout (s : State) : Res := .next (tideTimeout s)

/-- A multi-module program stands before its START. -/
def awaitsStart (s : State) : Bool := s.slots.any fun e => e.2.state == .admitted && decide (1 < e.2.modules)

/-- A tide record arrives on a port. -/
def tideIn (p : Nat) (b : Bytes) (s : State) : State :=
  match tideSlot s with
  | none =>
    if awaitsStart s ∧ leAt b 0 1 = 1 ∧ leAt b 1 1 ≠ 3 then
      { s with tideHeld := s.tideHeld ++ [(leAt b 4 4, leAt b 2 2, p % 6, leAt b 8 8, leAt b 16 8)] }
    else s
  | some k =>
    let t := s.tideOf k
    let dir := p % 6
    let span := (s.slot k).span.toNat
    let kind := leAt b 0 1
    let out := leAt b 1 1
    let round := leAt b 2 2
    let theirs := leAt b 4 4
    if out = 3 then tideAbort k 3 (leAt b 24 1) p (some dir) s
    else if theirs = span then
      if kind = 1 then s.modTide k fun d => { d with ups := d.ups ++ [(round, dir, leAt b 8 8, leAt b 16 8)] }
      else if t.upSent ∧ ¬ t.passed ∧ ¬ t.recount ∧ round = t.round ∧ (out = 1 ∨ out = 2) then tideDown out k s
      else s
    else if kind = 1 ∧ t.passed ∧ theirs = (span + 1) % 2 ^ 32 then
      s.modTide k fun d => { d with early := d.early ++ [(round, dir, leAt b 8 8, leAt b 16 8)] }
    else tideAbort k 1 1 p none s

/-- The tide of a program that starts: for one of several modules, UP records of its first span that came before count
(R358). -/
def tideStart (k span : Nat) (s : State) : State :=
  if 1 < (s.slot k).modules then
    { s.modTide k (fun _ => { ups := (s.tideHeld.filter fun u => u.1 == span).map (·.2) }) with tideHeld := [] }
  else s.modTide k fun _ => {}

/-- The tide starts anew for the span that follows; the counts of the span that closed are cleared. -/
def tideNext (k closed : Nat) (s : State) : State :=
  s.modTide k fun d => { ups := d.early, sent := tset 0 d.sent (closed % 2) 0, recv := tset 0 d.recv (closed % 2) 0 }

end Sys2Proof.Machine
end

