-- ==== Sys2Proof/Machine/LinkRx.lean ====
section
/-!
DEFINITION. Reception of flits: checks, acknowledgement, replay and credits (R300, R304–R306), forwarding (R307), and what
each type does at its target (R303, R310, R316–R318).
-/
namespace Sys2Proof.Machine

/-! ### Replay (R305) -/

/-- The port receives a stream of flits. -/
def Port.streaming (x : Port) : Bool := x.st == .ident || x.st == .active || x.st == .degraded || x.st == .standby

/-- LINK_REPLAY_TIMEOUT: ACK has not advanced for 2 µs while flits are unacknowledged. -/
def replayTimeout (p : Nat) (s : State) : State :=
  if (s.port p).streaming ∧ (s.port p).retry ≠ [] then replay p 2 s else s

def execLinkReplayTimeout (p : PortNo) (s : State) : Res := .next (replayTimeout p.val s)

/-- Buffers of a channel, which are its initial credits (R306). -/
def bufCap (v : Nat) : Nat := if v < 2 then 128 else if v < 4 then 32 else 8

/-- ACK, credits and NAK of a good flit (R302, R304–R306). Credits never pass the buffers of a channel (log entry 151). A NAK that finds a replay under way starts none (log entry
37). -/
def linkControlIn (p : Nat) (f : LinkFlit) (s : State) : State :=
  let x := s.port p
  let n := (flitFd f 175 164 + 4096 - x.acked) % 4096
  let x : Port := if n = 0 ∨ x.retry.length < n then x
    else { x with acked := flitFd f 175 164, replays := 0, retry := x.retry.drop n,
                  resend := x.resend.filter fun g => (x.retry.drop n).any fun h => h.seq == g.seq }
  let credit := (List.range 5).foldl (fun t v => tmod 0 t v fun n => min (bufCap v) (n + flitFd f (135 + 6 * v) (130 + 6 * v))) x.credit
  let x : Port := { x with credit := credit }
  let s := s.setPort p x
  if flitFd f 163 163 = 1 ∧ x.retry ≠ [] ∧ x.resend = [] ∧ x.streaming then replay p 0 s else s

/-! ### Buffers (R306) -/

/-- Flits that arrived on a port and channel and wait to go on. -/
def bufHeld (s : State) (p v : Nat) : Nat :=
  s.ports.foldl (fun n e => e.2.waiting.foldl (fun n w => n + (w.2.filter fun f => f.buf == some (p, v)).length) n)
    (s.linkHeld.filter fun x => x.1 == p && x.2.1 == v).length

/-! ### Targets (R310) -/

/-- The slot of the program that a job number names (log entry 39). -/
def jobSlot (s : State) (job : Nat) : Option Nat :=
  (s.slots.find? fun e => e.2.job.toNat == job &&
    (e.2.state == .running || e.2.state == .stopping || e.2.state == .preempted || e.2.state == .restoring)).map (·.1)

/-- The flit is discarded under R310. -/
def linkDrop (s : State) : State := s.bump Reg.LNK_DROP_COUNT 1

/-- A sheet whose SCHK does not match its payload (R310, R321); `o` is the slot whose program it belongs to, where this
module has one, and else the span of the program that runs stands in the record (log entry 153). -/
def linkMismatch (p src : Nat) (o : Option Nat) (s : State) : State :=
  let s := (s.setBits Reg.ERR_STATUS 8).bump Reg.ERR_CHECK_COUNT 1
  let span := match o with
    | some k => (s.slot k).span.toNat
    | none => s.spanNo
  s.logStop Ev.CHECK_MISMATCH (Src.port p) (leBytes 0x06 1 ++ leBytes p 1 ++ leBytes src 2 ++ leBytes span 4) o

def linkVerify (p : Nat) (o : Option Nat) (f : LinkFlit) (s : State) : State :=
  if flitType f = 1 ∨ flitType f = 2 ∨ flitType f = 4 then
    (if crc32c (padTo f.payload 256) = f.schk then s else linkMismatch p (flitFd f 117 108) o s)
  else s

/-- A translation fault of link traffic stops the program (R310). -/
def linkFault (p k va kind : Nat) (s : State) : State := xlatStop s (Src.port p) va kind 0xFF k 0 (some k)

/-- A transaction that carries something is discarded on its fault (R310, R319). -/
def linkFaultDrop (p k va kind : Nat) (s : State) : State := linkDrop (linkFault p k va kind s)

/-- A transaction is received at its final target; those of the domain count for the tide (log entry 38). -/
def countRecv (k : Nat) (f : LinkFlit) (s : State) : State :=
  if flitFd f 128 128 = 1 then s else s.modTide k fun d => { d with recv := tmod 0 d.recv (flitFd f 91 91) (· + 1) }

/-- The answer to a READ: back to its requester, or over the port that a request from outside the domain came in on. -/
def readResp (p k : Nat) (f : LinkFlit) (fail : Bool) (data : Bytes) (chk : Word) (s : State) : State :=
  let va := flitFd f 87 40
  let tag := flitFd f 15 0
  if flitFd f 128 128 = 1 then
    linkPut p { vc := 2, ftype := 4, hdr := hdrOf 4 0 0 s.rank (flitFd f 107 92) (flitFd f 91 91) va (b2n fail) tag, payload := data, schk := chk } s
  else originate k 4 (flitFd f 117 108) (flitFd f 91 91) va (b2n fail) tag data chk s

/-- What a request or response does at its target. -/
def targetIn (p : Nat) (f : LinkFlit) (s : State) : State :=
  match jobSlot s (flitFd f 107 92) with
  | none => linkDrop s
  | some k =>
    let s := linkVerify p (some k) f (countRecv k f s)
    let s := if s.idle = 3 ∧ (s.slot k).state = .preempted then idleExit s else s
    let va := flitFd f 87 40
    let data := padTo f.payload 256
    let s := if flitType f = 4 then s else xlatWalk k va s
    match flitType f with
    | 1 =>
      match translate s k va .wr with
      | .pa a => gatherArrive k (va / 256 * 256) (flitFd f 91 91) (s.hbmPut a data f.schk)
      | .fault kind => linkFaultDrop p k va kind s
    | 2 =>
      match translate s k va .acc with
      | .pa _ => accArrive k (flitFd f 117 108) (flitFd f 31 20) (flitFd f 17 0) (flitFd f 39 36) (flitFd f 91 91) data f.schk s
      | .fault kind => linkFaultDrop p k va kind s
    | 3 =>
      match translate s k va .rd with
      | .pa a =>
        let s := hbmVerify a (hbmRead a false s)
        readResp p k f false (s.hbmSheet a) (s.hbmCheck a) s
      | .fault kind => readResp p k f true (List.replicate 256 0) zeroChk (linkFault p k va kind s)
    | 6 =>
      match translate s k va .wr with
      | .pa _ =>
        let r := s.redSlot k
        s.setRedSlot k { r with doorbells := tmod 0 r.doorbells (flitFd f 5 0) (· + BitVec.ofNat 64 (leAt f.payload 0 8)) }
      | .fault kind => linkFaultDrop p k va kind s
    | _ => s

/-- The sheet of HBM that a transaction of the link reads, writes or adds to at its controller (R158, R310). -/
def linkPa (s : State) (f : LinkFlit) : Option Nat :=
  match jobSlot s (flitFd f 107 92) with
  | none => none
  | some k =>
    let at_ (r : Right) : Option Nat := match translate s k (flitFd f 87 40) r with
      | .pa a => some a
      | .fault _ => none
    match flitType f with
    | 1 => at_ .wr
    | 2 => at_ .acc
    | 3 => at_ .rd
    | _ => none

/-- A transaction may be taken at its target: it needs no slot of a controller, or has one (R158). -/
def linkReady (s : State) (f : LinkFlit) : Bool :=
  match linkPa s f with
  | some a => localSlot s a
  | none => true

/-- A transaction is taken at its target, and leaves its buffer. -/
def takeTarget (p vc : Nat) (f : LinkFlit) (s : State) : State :=
  freeBuf (some (p, vc)) (targetIn p f (match linkPa s f with
    | some a => s.takeLocal a
    | none => s))

/-- The transactions that wait are taken in the order in which they came, as far as their controllers have slots (R158,
R309). -/
def drainHeld : Nat → State → State
  | 0, s => s
  | fuel + 1, s =>
    match s.linkHeld with
    | [] => s
    | (p, vc, f) :: r => if linkReady s f then drainHeld fuel (takeTarget p vc f { s with linkHeld := r }) else s

/-- Link data of a cycle. -/
def tickLinks (s : State) : State := drainHeld s.linkHeld.length s

/-- A transaction is at its target: it is taken, or waits for a slot of its controller behind those that came before it. -/
def atTarget (p vc : Nat) (f : LinkFlit) (s : State) : State :=
  if s.linkHeld.isEmpty && linkReady s f then takeTarget p vc f s else { s with linkHeld := s.linkHeld ++ [(p, vc, f)] }

/-- A request or response is at this module: it is taken here, or goes on once its sheet is checked (R307). -/
def transit (p vc : Nat) (f : LinkFlit) (s : State) : State :=
  let dst := flitFd f 127 118
  let free (s : State) : State := freeBuf (some (p, vc)) s
  if dst = s.rank then atTarget p vc f s
  else
    let s := linkVerify p (jobSlot s (flitFd f 107 92)) f s
    let g : TxFlit := { vc := vc, ftype := flitType f, hdr := (f.hdr.toNat % 2 ^ 192 / 2 ^ 188) * 2 ^ 188 + flitFd f 129 0, payload := f.payload,
                        schk := f.schk, buf := some (p, vc) }
    if (nextHop s dst).isNone then free (linkDrop s)
    else forward g dst (flitFd f 117 108) (vc / 2) (some (p, vc)) s

/-! ### The receiver (R300, R304–R306) -/

/-- The stream passes by one flit: PF_CORR and PF_UNCORR count the codeword that begins in it, and the flit is lost where
a codeword it lies in cannot be corrected (R300, R320). -/
def fecIn (p : Nat) (fec : Fec) (s : State) : Bool × State :=
  let x := s.port p
  let fails := decide (rsCorrects < fec.errs)
  let new := cwBegins x.rxPos
  let bad := (x.rxPos != 0 && x.rxBad) || (new && fails)
  let s := s.setPort p { x with rxPos := (x.rxPos + flitBits) % messageBits, rxBad := if new then fails else x.rxBad }
  let s := if !new || fec.errs == 0 then s else s.bump (Reg.port p (if fails then 0x10 else 0x0C)) 1
  (bad, s)

/-- A flit of the row's type is received on a port. One that lies in a codeword that cannot be corrected counts as one whose
CRC failed (R300). -/
def receive (p : Nat) (f : LinkFlit) (fec : Fec) (row : Nat → Bool) (sequenced : Bool) (take : State → State) (s : State) : State :=
  if !(s.port p).streaming then s
  else
    let good := f.fcrc == flitCrc f.hdr f.payload f.schk
    let r := fecIn p fec s
    if r.1 || !good then
      let s := r.2.bump (Reg.port p 0x14) 1
      if sequenced then s.modPort p fun x => { x with nak := true } else s
    else if !row (flitType f) then s
    else
      let s := linkControlIn p f r.2
      if !sequenced then s
      else
        let x := s.port p
        if flitFd f 187 176 ≠ x.expect ∨ !x.streaming then s
        else
          let vc := flitFd f 162 160
          if 5 ≤ vc ∨ bufCap vc ≤ bufHeld s p vc then portDown p 3 s
          else take (s.setPort p { x with expect := (x.expect + 1) % 4096, nak := false })

/-- What a sequenced flit does beyond the link: in IDENT and STANDBY only MGMT flits are carried (R296). -/
def carried (p : Nat) (f : LinkFlit) (act : State → State) (s : State) : State :=
  let vc := flitFd f 162 160
  if s.linkUp p then act s else freeBuf (some (p, vc)) s

def linkTransaction (ty p : Nat) (f : LinkFlit) (fec : Fec) (s : State) : State :=
  receive p f fec (· == ty) true (fun s => carried p f (transit p (flitFd f 162 160) f) s) s

def linkNull (p : Nat) (f : LinkFlit) (fec : Fec) (s : State) : State := receive p f fec (· == 0) false id s

def linkTideIn (p : Nat) (f : LinkFlit) (fec : Fec) (s : State) : State :=
  receive p f fec (· == 5) true (fun s => freeBuf (some (p, flitFd f 162 160)) (if s.linkUp p then tideIn p f.payload s else s)) s

def linkMgmt (kind p : Nat) (f : LinkFlit) (fec : Fec) (s : State) : State :=
  receive p f fec (fun t => t == 7 && leAt f.payload 0 1 == kind) true
    (fun s =>
      let s := freeBuf (some (p, flitFd f 162 160)) s
      if kind = 1 then identIn p f.payload s else failoverIn f.payload s) s

/-- A flit of a reserved type is discarded and counted (R310). -/
def linkReserved (p : Nat) (f : LinkFlit) (fec : Fec) (s : State) : State :=
  receive p f fec (fun t => decide (8 ≤ t)) true (fun s => linkDrop (freeBuf (some (p, flitFd f 162 160)) s)) s

def execLinkNull (p : PortNo) (f : LinkFlit) (c : Fec) (s : State) : Res := .next (linkNull p.val f c s)
def execLinkWrite (p : PortNo) (f : LinkFlit) (c : Fec) (s : State) : Res := .next (linkTransaction 1 p.val f c s)
def execLinkAccWrite (p : PortNo) (f : LinkFlit) (c : Fec) (s : State) : Res := .next (linkTransaction 2 p.val f c s)
def execLinkRead (p : PortNo) (f : LinkFlit) (c : Fec) (s : State) : Res := .next (linkTransaction 3 p.val f c s)
def execLinkReadResp (p : PortNo) (f : LinkFlit) (c : Fec) (s : State) : Res := .next (linkTransaction 4 p.val f c s)
def execLinkTide (p : PortNo) (f : LinkFlit) (c : Fec) (s : State) : Res := .next (linkTideIn p.val f c s)
def execLinkDoorbell (p : PortNo) (f : LinkFlit) (c : Fec) (s : State) : Res := .next (linkTransaction 6 p.val f c s)
def execLinkMgmtIdent (p : PortNo) (f : LinkFlit) (c : Fec) (s : State) : Res := .next (linkMgmt 1 p.val f c s)
def execLinkMgmtFailover (p : PortNo) (f : LinkFlit) (c : Fec) (s : State) : Res := .next (linkMgmt 2 p.val f c s)
def execLinkReservedFlit (p : PortNo) (f : LinkFlit) (c : Fec) (s : State) : Res := .next (linkReserved p.val f c s)

end Sys2Proof.Machine
end

