-- ==== Sys2Proof/Machine/Ras.lean ====
section
/-!
DEFINITION. Background tasks and maintenance windows (R415–R418), scrub (R406, R408, R417) and errors in firmware SRAM
(R408).
-/
namespace Sys2Proof.Machine

/-! ### Periods and limits (R415, R422) -/

/-- RAS_TASK_CFG of a task after reset, in units of 10 s. -/
def taskInit (k : Nat) : Word :=
  let w (limit period : Nat) : Word := BitVec.ofNat 32 (limit * 65536 + period)
  match k with
  | 0 => w 1440 360
  | 1 => w 1440 360
  | 2 => w 17280 8640
  | 3 => w 6 1
  | 4 => w 9000 8640
  | 5 => w 6 1
  | _ => 0

def State.taskCfg (s : State) (k : Nat) : Word := tget (taskInit k) s.ras.cfg k
def State.taskAge (s : State) (k : Nat) : Nat := tget 0 s.ras.age k

/-- The task is past its period, and at its deferral limit. -/
def taskDue (s : State) (k : Nat) : Bool := decide (100000 * wfld (s.taskCfg k) 15 0 ≤ s.taskAge k)
def taskForces (s : State) (k : Nat) : Bool := !s.taskOff k && decide (100000 * wfld (s.taskCfg k) 31 16 ≤ s.taskAge k)

/-- A pass is complete. -/
def passDone (k : Nat) (s : State) : State :=
  { s with ras := { s.ras with age := tset 0 s.ras.age k 0, deferred := s.ras.deferred.filter (· != k), done := tset 0 s.ras.done k 0 } }

/-! ### Scrub (R406, R408, R417) -/

/-- Errors of a place: word number and wrong bits or bytes. -/
def eccOf (s : State) (place : Nat) : List (Nat × Nat) :=
  (tregion s.mem.ecc (eccKey place 0) (2 ^ 48))

/-- A word that scrub reads is corrected in place (R408). -/
def scrubFix (place w wrong : Nat) (s : State) : State := if wrong ≤ eccReach place then s.eccWrite place w else s

/-- Tile stores: banks that are not ON are skipped. -/
def scrubTs (s : State) : State :=
  (eccOf s placeTs).foldl (fun s e =>
    let t := e.1 / 0x6000
    let g := e.1 % 0x6000
    if (s.bank t (bankOf g)).pwr = .on then
      scrubFix placeTs e.1 e.2 (s.eccRead placeTs e.1 (Src.tile t) (bankOf g) (8 * g) true s.running)
    else s) s

/-- Slot whose window holds an offset of a levee. -/
def windowOwner (s : State) (l off : Nat) : Option Nat :=
  (s.slots.find? fun e => let w := tget (0, 0) e.2.win l; decide (w.1 * 0x10000 ≤ off ∧ off < (w.1 + w.2) * 0x10000)).map (·.1)

def scrubRsv (s : State) : State :=
  (eccOf s placeRsv).foldl (fun s e =>
    let l := 8 * e.1 / rsvSize
    let off := 8 * e.1 % rsvSize
    scrubFix placeRsv e.1 e.2 (s.eccRead placeRsv e.1 (Src.levee l) l off true (windowOwner s l off))) s

/-- The check of a sheet that the HBM scrub reads: reported with byte 9 set (R406, R424). -/
def scrubCheck (n : Nat) (s : State) : State :=
  let pa := 256 * n
  if crc32c (s.hbmSheet pa) = s.hbmCheck pa then s
  else
    let o := ownerOfPa s pa
    let s := (s.setBits Reg.ERR_STATUS 8).bump Reg.ERR_CHECK_COUNT 1
    s.logStop Ev.CHECK_MISMATCH (Src.stack (stackOf pa)) (eccData placeHbm (stackOf pa) pa true (o.getD 0xFF) s.spanNo) o

/-- HBM: every codeword with errors, then the check of every sheet that differs from a zero-filled one. -/
def scrubHbm (s : State) : State :=
  let s := ((eccOf s placeHbm ++ eccOf s placeDie).map (·.1)).eraseDups.foldl (fun s w => hbmCodeword w true (ownerOfPa s (w * 128)) s) s
  let sheets : List Nat := (s.mem.hbm.map fun (e : Nat × Byte) => e.1 / 256) ++ s.mem.hbmChk.map fun (e : Nat × Word) => e.1
  sheets.eraseDups.foldl (fun s n => scrubCheck n s) s

/-- The work of a task and its pass: scrubs, freeboard calibration and telemetry, which leave nothing a register shows,
and the recalibration of a port. -/
def taskWork (k port : Nat) (s : State) : State :=
  let s := match k with
    | 0 => scrubTs s
    | 1 => scrubRsv s
    | 2 => scrubHbm s
    | 4 => let s := toRecover port s; { s with ras := { s.ras with calOn := some port } }
    | _ => s
  passDone k s

/-- A task runs now: in a window, or, of task 4, the port it sent is in RECOVER (R416, R422). -/
def runsNow (s : State) (k : Nat) : Bool :=
  if k = 4 then (match s.ras.calOn with
    | some p => (s.port p).st == .recover
    | none => false)
  else inWindow s k

/-- A port carries no flit: none waits and none is unacknowledged. -/
def Port.idle (x : Port) : Bool := x.retry.isEmpty && x.resend.isEmpty && x.waiting.all fun e => e.2.isEmpty

/-- Tasks 0, 3 and 5 run in windows, or with no program running; link recalibration at a port that is up and idle; the
other two in idle slots. None runs in an idle state that powers down the parts it needs (R415). -/
def taskMay (k port : Nat) (s : State) : Bool :=
  !s.taskOff k && powered s k && (if k = 4 then s.linkUp port && (s.port port).idle else if k = 1 ∨ k = 2 then true else s.running.isNone || decide (0 < s.ras.win))

/-- BACKGROUND_TASK_PASS. A frame found bad that is free is tested at once (R412). -/
def taskPass (k port : Nat) (s : State) : State := s.firmware fun s => if taskMay k port s then testFrames (taskWork k port s) else s

def execBackgroundTaskPass (k : Fin 6) (port : PortNo) (s : State) : Res := .next (inOneCycle (taskPass k.val port.val) s)

/-- SCRUB_DEFERRED: a task passes its period without completing a pass (R418). -/
def scrubDeferred (k : Nat) (s : State) : State :=
  if s.ras.deferred.contains k ∨ !taskDue s k then s
  else
    let age := s.taskAge k
    let s := { s with ras := { s.ras with deferred := k :: s.ras.deferred } }
    ((s.setBits Reg.ERR_STATUS 0x10).bump Reg.RAS_DEFER_COUNT 1).log1 Ev.SCRUB_DEFERRED (Src.node 0)
      (leBytes k 1 ++ leBytes 0 3 ++ leBytes (age / 10000) 4 ++ leBytes s.spanNo 4)

def execScrubDeferred (k : Fin 6) (s : State) : Res := .next (s.firmware (scrubDeferred k.val))

/-! ### Windows (R416, R418) -/

/-- Grid cycles of one pass of the tasks that complete passes in windows (R415). -/
def passCycles : List (Nat × Nat) := [(0, 768), (1, 16384), (3, 512), (5, 256)]

/-- A window of a number of cycles opens (R416). -/
def openWindow (cycles : Nat) (s : State) : State := { s with ras := { s.ras with win := cycles, ran := [] } }

/-- One cycle of the window: tasks 0, 1, 3 and 5 run at once, and a pass that the window does not finish goes on in the
next one (R416). -/
def windowCycle (s : State) : State :=
  if s.ras.win = 0 then s
  else
    let s := passCycles.foldl (fun s e =>
      if inWindow s e.1 then
        let n := tget 0 s.ras.done e.1 + 1
        if e.2 ≤ n then
          let s := testFrames (taskWork e.1 0 s)
          { s with ras := { s.ras with ran := e.1 :: s.ras.ran } }
        else { s with ras := { s.ras with done := tset 0 s.ras.done e.1 n } }
      else s) s
    { s with ras := { s.ras with win := s.ras.win - 1 } }

/-- The next port in turn that carries traffic. -/
def calPortNext (s : State) : Option Nat :=
  ((List.range 12).map fun k => (s.ras.calPort + k) % 12).find? s.linkUp

/-- A forced window at a boundary, before the span with a number starts: it holds every polder (R418). -/
def forcedWindow (span : Nat) (s : State) : State :=
  let f := (List.range 6).filter (taskForces s)
  if f.isEmpty then s
  else
    let us := s.rf Reg.RAS_MAINT_CTRL 31 16
    let port := if f.contains 4 then calPortNext s else none
    let s := ((s.setBits Reg.ERR_STATUS 0x20).bump Reg.RAS_FORCED_COUNT 1).log1 Ev.MAINT_FORCED (Src.node 0)
      (leBytes (f.foldl (fun m k => m + 2 ^ k) 0) 1 ++ leBytes (port.getD 0xFF) 1 ++ leBytes 0 2 ++ leBytes us 4 ++ leBytes span 4)
    let s := openWindow (us * 50 * opClock (s.rf Reg.CLK_STATUS 31 28)) s
    let s := match port with
      | some p => taskWork 4 p { s with ras := { s.ras with calPort := (p + 1) % 12 } }
      | none => s
    { s with ras := { s.ras with hold := true } }

/-! ### Firmware SRAM (R408, R409) -/

/-- FIRMWARE_SRAM_ERROR: every program stops at once, as ABORT stops it (log entry 33). -/
def firmwareError (s : State) : State :=
  let s := noteFatal ((s.setBits Reg.ERR_STATUS 4).bump Reg.ERR_UE_COUNT 1) Ev.ECC_UNCORRECTABLE
  let k := s.running
  let r := logTry s Ev.ECC_UNCORRECTABLE (Src.levee 0) (eccData 0x11 0 0 false (k.getD 0xFF) s.spanNo) k
  match k with
  | some k => if (r.1.slot k).ending.isNone then beginEnd k 5 Ev.ECC_UNCORRECTABLE r.2 r.1 else r.1
  | none =>
    match r.1.restoring with
    | some k => r.1.setSlot k { r.1.slot k with ending := some (5, Ev.ECC_UNCORRECTABLE, r.2) }
    | none => r.1

def execFirmwareSramError (s : State) : Res := .next (firmwareError s)

end Sys2Proof.Machine
end

