-- ==== Sys2Proof/Machine/Span.lean ====
section
/-!
DEFINITION. The span boundary (R251, R252): its conditions, what it reports, decides and applies, and the end of a
program at it.
-/
namespace Sys2Proof.Machine

/-! ### Conditions -/

/-- A copy waits for the boundary that ends the current span (R361). -/
def copyDue (s : State) (k : Nat) : Bool :=
  s.host.waits.any fun w => w.1 == opCopyOut && w.2.slot.toNat == k && argAt w.2 32 1 == 1 && argAt w.2 36 4 == (s.slot k).span.toNat

/-- Everything R251 asks of the boundary of slot k's program, and that its reams are settled (R327; log entry 44). -/
def boundaryReady (k : Nat) (s : State) : Bool :=
  (s.slot k).state == .running && localReady k s && countsEqual true s && reamsSettled s k && (decide ((s.slot k).modules ≤ 1) || (s.slot k).tide.passed)

/-- The lowest tile that stands at the closing boundary with a halted queue (R166). -/
def haltedAtTide (k : Nat) (s : State) : Option Nat :=
  if (s.slot k).coded.all (tileArrived s) then (s.slot k).coded.find? (fun t => s.anyHalt t) else none

/-! ### The next span -/

/-- Tiles of ACTIVE polders that arrived, with the span record each names. -/
def arrivals (k : Nat) (s : State) : List (Nat × Nat) :=
  (s.slot k).coded.filterMap fun t =>
    if s.polder (polderOf t) = 0 then
      match (s.tile t).core with
      | .arrived n _ => some (t, n)
      | _ => none
    else none

/-- Cycles a tile remembers, as the new span counts them: what lies before it reads as cycle 0. A set that was drained holds
nothing that a stream of the new span could lose (R32). -/
def Tile.rebase (x : Tile) : Tile :=
  let old (i : SetInfo) : SetInfo := if i.drained.isSome then {} else { ready := i.ready.map fun _ => 0 }
  let arr (a : ArraySt) : ArraySt := { a with set0 := old a.set0, set1 := old a.set1 }
  { x with nextAt := 0, longLast := none, redLast := none, vLast := x.vLast.map fun _ => 0, chainUse := [], ld := [],
           arr0 := arr x.arr0, arr1 := arr x.arr1, banks := x.banks.map fun b => (b.1, { b.2 with closedAt := b.2.closedAt.map fun _ => 0 }) }

/-- A tile that arrived goes on in an ACTIVE polder with the bundle after its tide; one past the last bundle has ended
(R243, R251). -/
def resumeTile (t : Nat) (s : State) : State :=
  let x := s.tile t
  match x.core with
  | .arrived _ _ =>
    if s.polder (polderOf t) ≠ 0 then s
    else if 1024 ≤ x.pc then (s.setTile t { x with core := .ended }).coreHaz t 7 slotC
    else s.setTile t { x with core := .running }
  | _ => s

/-- The span that follows: its record, cycle 0, every tile, ream and tide for it, and the window it declares. -/
def openSpan (k : Nat) (s : State) : State :=
  let p := s.slot k
  let l := arrivals k s
  let n := ((l.head?).map (·.2)).getD p.spanRec
  let s := l.foldl (fun s e => if e.2 = n then s else s.coreHaz e.1 5 slotC) s
  let s := (s.setSlot k { p with span := p.span + 1 })
  let s := openWindow (1024 * (p.spans.getD n {}).maint) (applyRecord k n { s with ras := { s.ras with hold := false } })
  let s := { s with cycle := 0, pulp := [], pulpDone := none, pulpLogged := false }
  let s := s.tiles.foldl (fun s e => s.modTile e.1 Tile.rebase) s
  let s := p.coded.foldl (fun s t => resumeTile t s) s
  armReams k (tideNext k p.span.toNat s)

/-- The next span opens: at once, or when a forced window is over (R418). The counts return to 0 as it opens (R222). -/
def nextSpan (k : Nat) (s : State) : State :=
  let s := forcedWindow ((s.slot k).span + 1).toNat s
  if s.ras.hold then s else openSpan k (stretchBoundary s)

/-- The forced window is over: the span opens in the first cycle in which the counts are equal, which return to 0, and a
pre-emption that was asked for meanwhile starts (R222, R417). -/
def holdEnd (s : State) : State :=
  if s.ras.hold ∧ s.ras.win = 0 then
    match s.running with
    | none => { s with ras := { s.ras with hold := false } }
    | some k =>
      if !countsEqual true s then s else
      let s := openSpan k (stretchBoundary s)
      if s.host.waits.any fun w => w.1 == opPreempt then s.startPreempt none else s
  else s

/-! ### The boundary -/

/-- What every boundary does before the program goes on or ends: the Felt and the contexts are emptied, the span is
reported, and the operating point is decided and changed (R72, R87, R186, R222–R225, R387, R396). -/
def closeSpan (k : Nat) (s : State) : State :=
  let s := spanReport (meshFlush (feltFlush s))
  opBoundary ((s.slot k).span.toNat + 1) (fbBoundary (thermalDecide (powerCapDecide s)))

/-- SPAN_BOUNDARY. A pending stop comes first; then the end of a program whose tiles have all ended (R252, R410). -/
def spanBoundary (s : State) : State :=
  match s.running with
  | none => s
  | some k =>
    if s.ras.hold then s else
    let s := settleStreams s
    match haltedAtTide k s with
    | some t => if (s.slot k).state = .running then s.startPreempt (some t) else s
    | none =>
      let s := if 1 < (s.slot k).modules then noteArrival k s else s
      if !boundaryReady k s || copyDue s k then s
      else
        let s := closeSpan k s
        match (s.slot k).pendStop with
        | some c => endProgram k 2 c.1 c.2 (stretchBoundary s)
        | none =>
          if (s.slot k).coded.all fun t => (s.tile t).core = .ended then endProgram k 1 0 (some 0) (stretchBoundary s)
          else nextSpan k s

def execSpanBoundary (s : State) : Res := .next (inOneCycle spanBoundary s)

end Sys2Proof.Machine
end

