-- ==== Sys2Proof/Machine/Host.lean ====
section
/-!
DEFINITION. The host commands (R357–R361), the HBM aperture (R362), and the resets and removal the host sees (R363,
R364, R376).
-/
namespace Sys2Proof.Machine

/-! ### ADMIT -/

/-- An ADMIT waits while a slot of its function is torn down (R363). -/
def tearing (s : State) (f : FnNo) : Bool := s.slots.any fun e => e.2.teardown && e.2.owner == some f

/-- A read of host memory fails (R359). -/
def dmaFails (s : State) (a n : Nat) : Bool := s.host.bad.any fun r => decide (r.1 < a + n ∧ a < r.1 + r.2)

/-- The reservation of n bytes for one more slot would take a function above its quota (R357). -/
def overQuota (s : State) (f : FnNo) (n : Nat) : Bool :=
  let q := s.quotaOf f.val
  let mine := s.slots.filter fun e => e.2.owner == some f
  let used := mine.foldl (fun k e => k + e.2.hbmMiB) 0
  decide (q.slots < mine.length + 1) || decide (1024 * q.gib < used + 2 * ((n + 0x1FFFFF) / 0x200000))

/-- A refused ADMIT (R264, R359). -/
def admitRefused (c : HostCmd) (k : Nat) (r : Refuse) (s : State) : State :=
  finishCmd c 4 0xFF r.reason 0 0 (refuse c.fn k r s)

/-- The image is checked, reserved, loaded, placed and patched; the quota comes after the loader's checks, and the trip
of R397 refuses as capacity does (log entry 46). -/
def admitTo (c : HostCmd) (k : Nat) (s : State) : State :=
  let n := c.len.toNat
  if dmaFails s c.haddr.toNat n then finishCmd c 5 0xFF 0 0 0 s
  else
    match loadCheck s.domN s.rank (s.rf Reg.ID_DLSET 7 0) (s.hostRead c.haddr.toNat n) n with
    | .error r => admitRefused c k r s
    | .ok im =>
      if overQuota s c.fn im.hbm then admitRefused c k ⟨0x11, 0, 0, 0⟩ s
      else if s.pwr.tripped then admitRefused c k ⟨0x10, 0, 0, 0⟩ s
      else
        match reserve s im with
        | none => admitRefused c k ⟨0x10, 0, 0, 0⟩ s
        | some r => finishCmd c 0 k k 0 0 (portsAdmit (load c.fn k im r (recalibrate s)))

/-- ADMIT: to the slot named, or to the lowest that is EMPTY. -/
def admitCmd (c : HostCmd) (s : State) : State :=
  if tearing s c.fn then s
  else
    startCmd 1 c [] (fun s =>
      let free (k : Nat) : Bool := (s.slot k).state == .empty
      if c.slot.toNat = 0xFF then
        match (List.range 16).find? free with
        | some k => admitTo c k s
        | none => admitRefused c 0xFF ⟨0x10, 0, 0, 0⟩ s
      else if 16 ≤ c.slot.toNat then finishCmd c 1 0xFF 0 0 0 s
      else if free c.slot.toNat then admitTo c c.slot.toNat s
      else finishCmd c (if (s.slot c.slot.toNat).owner = some c.fn then 2 else 7) c.slot.toNat 0 0 0 s) s

def execAdmit (c : HostCmd) (s : State) : Res := .next (admitCmd c s)

/-! ### START (R358, R375) -/

/-- The values of the kind-1 patches, or none where one lies outside 48 bits. -/
def startPatches (c : HostCmd) (p : Slot) : Option (List (Patch × Nat)) :=
  p.patches.mapM fun q => (patchVal (argAt c (48 + 8 * (q.index % 8)) 8) q).map fun v => (q, v)

/-- A tainted slot runs with a stop pending from its first cycle (R411). -/
def taintStop (k : Nat) (s : State) : State :=
  if (s.reg Reg.RAS_TAINT).getLsbD k ∧ (s.slot k).pendStop.isNone then s.setSlot k { s.slot k with pendStop := some (0, some 0) } else s

/-- The grid of slot k is loaded and its program stands before cycle 0 of its first span. -/
def launch (c : HostCmd) (k : Nat) (vals : List (Patch × Nat)) (s : State) : State :=
  let s := claimGrid k s
  let save := ((s.slot k).save).getD 0
  let s := vals.foldl (fun s v => putPatch save v.1 v.2 s) s
  let s := { s with cycle := 0 }
  let s := loadGrid k s
  let s := s.setSlot k { s.slot k with seed := BitVec.ofNat 64 (argAt c 32 8), span := BitVec.ofNat 32 (argAt c 40 4),
                                       job := BitVec.ofNat 16 (argAt c 44 2), startCid := c.cid, startQ := c.q.val,
                                       pendStop := if (s.reg Reg.RAS_TAINT).getLsbD k then (s.slot k).pendStop else none,
                                       ending := none, byHalt := false }
  let s := taintStop k ((tideStart k (argAt c 40 4) s).slotTo k .running)
  armReams k (openWindow (1024 * ((s.slot k).spans.getD 0 {}).maint) (applyRecord k 0 s))

abbrev opStart : Nat := 2

/-- The command waits for its slot. -/
def waitFor (code : Nat) (c : HostCmd) (s : State) : State := { s with host := { s.host with waits := s.host.waits ++ [(code, c)] } }

/-- The governor, while LL_EN is 1, prepares for the command before cycle 0 is issued (R391). -/
def State.leads (s : State) : Bool := s.effF Reg.LL_CTRL 31 31 == 1

/-- START runs the program, unless the slot or its operands do not allow it. -/
def startNow (c : HostCmd) (go : Nat → List (Patch × Nat) → State → State) (s : State) : State :=
  withSlot c (fun k s =>
    let p := s.slot k
    if p.state ≠ .admitted then finishCmd c 2 k 0 0 0 s
    else if s.gridBusy ∨ s.pwr.preload then finishCmd c 3 k 0 0 0 s
    else
      match startPatches c p with
      | none => finishCmd c 1 k 0 0 0 s
      | some vals => go k vals s) s

/-- The program issues cycle 0, and the command completes. -/
def startGo (c : HostCmd) (k : Nat) (vals : List (Patch × Nat)) (s : State) : State :=
  finishCmd c 0 k (argAt c 40 4) 0 0 (launch c k vals s)

/-- START: at once, or after the governor has raised the draw. -/
def start (c : HostCmd) (s : State) : State :=
  startCmd 2 c [(32, 14), (48, 64)] (fun s => startNow c (fun k vals s =>
    if s.leads then waitFor opStart c { s with pwr := { s.pwr with preload := true } } else startGo c k vals s) s) s

def execStart (c : HostCmd) (s : State) : Res := .next (start c s)

/-- A START that waited for the governor goes on (R391). -/
def preloadEnd (s : State) : State :=
  if s.pwr.preload then s
  else (s.host.waits.filter fun w => w.1 == opStart).foldl (fun s w => startNow w.2 (startGo w.2) s) s

/-- GOVERNOR_TICK: every 100 µs. -/
def execGovernorTick (m : PowerSample) (s : State) : Res := .next (s.firmware fun s => preloadEnd (governorTick m s))

/-! ### PREEMPT, RESUME, ABORT, RELEASE -/

/-- PREEMPT of a RUNNING slot; one that names the slot being pre-empted joins (R167; log entry 47). -/
def preempt (c : HostCmd) (s : State) : State :=
  startCmd 3 c [] (fun s => withSlot c (fun k s =>
    let p := s.slot k
    if p.state = .running ∨ (p.state = .stopping ∧ p.ending.isNone) then (waitFor opPreempt c s).startPreempt none
    else finishCmd c 2 k 0 0 0 s) s) s

def execPreempt (c : HostCmd) (s : State) : Res := .next (preempt c s)

/-- RESUME: RESTORING until the grid is loaded (R171). -/
def resume (c : HostCmd) (s : State) : State :=
  startCmd 4 c [] (fun s => withSlot c (fun k s =>
    let p := s.slot k
    if p.state ≠ .preempted then finishCmd c 2 k 0 0 0 s
    else if s.gridBusy ∨ s.pwr.preload then finishCmd c 3 k 0 0 0 s
    else
      let s := { s with pwr := { s.pwr with preload := s.leads } }
      let s := (claimGrid k (recalibrate s)).slotTo k .restoring
      let s := taintStop k s
      waitFor opResume c (s.setRf Reg.PRE_STATUS 31 29 4)) s) s

def execResume (c : HostCmd) (s : State) : Res := .next (resume c s)

/-- ABORT: steps 1 and 2 of R167, without a save. -/
def abort (c : HostCmd) (s : State) : State :=
  startCmd 8 c [] (fun s => withSlot c (fun k s =>
    if (s.slot k).state = .running then beginEnd k 5 0 (some 0) (waitFor opAbort c s)
    else finishCmd c 2 k 0 0 0 s) s) s

def execAbort (c : HostCmd) (s : State) : Res := .next (abort c s)

/-- RELEASE: copies that wait for the slot end with status 0x02 (R361). -/
def release (c : HostCmd) (s : State) : State :=
  startCmd 5 c [] (fun s => withSlot c (fun k s =>
    let st := (s.slot k).state
    if st = .admitted ∨ st = .preempted ∨ st = .ended then
      finishCmd c 0 k 0 0 0 (releaseSlot k (finishWaits k opCopyOut 2 0 s))
    else finishCmd c 2 k 0 0 0 s) s) s

def execRelease (c : HostCmd) (s : State) : Res := .next (release c s)

/-! ### Copies (R357, R361) -/

def copyAligned (c : HostCmd) : Bool := c.va.toNat % 256 == 0 && c.len.toNat % 256 == 0 && c.haddr.toNat % 4 == 0

/-- Physical address of a virtual one that a host access reaches; addresses have 48 bits (R137). -/
def hostPa (s : State) (k va : Nat) (r : Right) : Option Nat :=
  if 2 ^ 48 ≤ va then none
  else
    match translate s k va r with
    | .pa a => some a
    | .fault _ => none

/-- COPY_IN of n sheets in ascending order, each sealed at ingress: the bytes done and the status. -/
def copyInto (k : Nat) : Nat → Nat → Nat → Nat → State → State × Nat × Nat
  | 0, _, _, done, s => (s, done, 0)
  | n + 1, ha, va, done, s =>
    let s := xlatWalk k va s
    match hostPa s k va .wr with
    | none => (s, done, 6)
    | some pa =>
      if dmaFails s ha 256 then (s, done, 5)
      else
        let b := s.hostRead ha 256
        copyInto k n (ha + 256) (va + 256) (done + 256) (s.hbmPut pa b (crc32c b))

/-- COPY_IN. -/
def copyIn (c : HostCmd) (s : State) : State :=
  startCmd 6 c [] (fun s => withSlot c (fun k s =>
    if !copyAligned c then finishCmd c 1 k 0 0 0 s
    else
      let r := copyInto k (c.len.toNat / 256) c.haddr.toNat c.va.toNat 0 s
      finishCmd c r.2.2 k r.2.1 0 0 r.1) s) s

def execCopyIn (c : HostCmd) (s : State) : Res := .next (copyIn c s)

/-- The check of a sheet that leaves through PCIe (R406): place 0x0A with VA[39:0] (R424). -/
def egress (k va pa : Nat) (s : State) : State × Bool :=
  let s := hbmRead pa false s
  if crc32c (s.hbmSheet pa) = s.hbmCheck pa then (s, true)
  else (s.checkFail (Src.stack (stackOf pa)) 0x0A (stackOf pa) (va % 2 ^ 40) (some k), false)

/-- COPY_OUT of n sheets in ascending order: the bytes done, the status, the sheets that failed and the first of them. -/
def copyFrom (k : Nat) : Nat → Nat → Nat → Nat → Nat → Nat → State → State × Nat × Nat × Nat × Nat
  | 0, _, _, done, bad, first, s => (s, done, 0, bad, first)
  | n + 1, ha, va, done, bad, first, s =>
    let s := xlatWalk k va s
    match hostPa s k va .rd with
    | none => (s, done, 6, bad, first)
    | some pa =>
      let e := egress k va pa s
      let s := { e.1 with host := { e.1.host with mem := mwrite e.1.host.mem ha (e.1.hbmSheet pa) } }
      copyFrom k n (ha + 256) (va + 256) (done + 256) (if e.2 then bad else bad + 1) (if e.2 ∨ bad ≠ 0 then first else va) s

/-- The copy is made now and its command ends, with a status unless a translation faults. -/
def copyNow (c : HostCmd) (k status : Nat) (s : State) : State :=
  let busy := b2n ((s.slot k).state == .running)
  let r := copyFrom k (c.len.toNat / 256) c.haddr.toNat c.va.toNat 0 0 0 (hbmWake s)
  finishCmd c (if r.2.2.1 = 0 then status else r.2.2.1) k (r.2.1 ||| 2 ^ 32 * busy) r.2.2.2.1 r.2.2.2.2 r.1

/-- COPY_OUT: at once, or it waits for its moment. -/
def copyOut (c : HostCmd) (s : State) : State :=
  startCmd 7 c [(32, 1), (36, 4)] (fun s => withSlot c (fun k s =>
    let when_ := argAt c 32 1
    if !copyAligned c ∨ 2 < when_ ∨ (when_ = 1 ∧ 0x4000000 < c.len.toNat) then finishCmd c 1 k 0 0 0 s
    else if when_ = 0 then copyNow c k 0 s
    else if (s.slot k).state = .ended then copyNow c k (if when_ = 1 then 9 else 0) s
    else waitFor opCopyOut c s) s) s

def execCopyOut (c : HostCmd) (s : State) : Res := .next (copyOut c s)

/-- COPY_OUT_DEFERRED: the moment of a waiting copy has come: the boundary that ends its span, or the end of the
program. -/
def copyDeferred (c : HostCmd) (s : State) : State :=
  let k := c.slot.toNat
  let when_ := argAt c 32 1
  if s.host.waits.contains (opCopyOut, c) then
    if (s.slot k).state = .ended then copyNow c k (if when_ = 1 then 9 else 0) s
    else if when_ = 1 ∧ s.running = some k ∧ boundaryReady k s ∧ (s.slot k).span.toNat = argAt c 36 4 then copyNow c k 0 s
    else s
  else s

def execCopyOutDeferred (c : HostCmd) (s : State) : Res := .next (copyDeferred c s)

/-! ### QUOTA and reserved commands -/

/-- QUOTA. -/
def quota (c : HostCmd) (s : State) : State :=
  startCmd 9 c [(32, 1), (36, 4), (40, 1), (42, 2)] (fun s =>
    let f := argAt c 32 1
    let q : FnQuota := ⟨argAt c 36 4, argAt c 40 1, argAt c 42 2⟩
    let others := (List.range 9).foldl (fun n g => if g = f then n else n + (s.quotaOf g).credits) 0
    if c.fn.val ≠ 0 then finishCmd c 7 0xFF 0 0 0 s
    else if f < 1 ∨ 8 < f ∨ 0xFFF < q.gib ∨ 16 < q.slots ∨ 0x1FF < q.credits ∨ 320 < others + q.credits then
      finishCmd c 1 0xFF 0 0 0 s
    else finishCmd c 0 0xFF 0 0 0 { s with host := { s.host with quota := tset (FnQuota.init f) s.host.quota f q } }) s

def execQuota (c : HostCmd) (s : State) : Res := .next (quota c s)

/-- RESERVED_COMMAND: a reserved opcode ends with status 0x01. -/
def reservedCommand (c : HostCmd) (s : State) : State :=
  startEntry c (decide (c.op.toNat = 0 ∨ 9 < c.op.toNat)) [(32, 96)] (fun s => finishCmd c 1 0xFF 0 0 0 s) s

def execReservedCommand (c : HostCmd) (s : State) : Res := .next (reservedCommand c s)

/-! ### The HBM aperture (R362) -/

/-- Physical addresses of the sheets that n bytes from an address touch, or none where one does not translate. -/
def aperturePas (s : State) (k va n : Nat) (r : Right) : Option (List (Nat × Nat)) :=
  (rangeFrom (va / 256) ((va + n + 255) / 256 - va / 256)).mapM fun j => (hostPa s k (256 * j) r).map fun a => (256 * j, a)

/-- A request is not served: zeros, or nothing written. -/
def apertureMiss (write : Bool) (n : Nat) (s : State) : State :=
  let s := s.bump Reg.HIF_B4_FAULT_COUNT 1
  if write then s else { s with host := { s.host with b4 := List.replicate n 0 } }

/-- Bytes of a write that fall into the sheet at an address. -/
def sheetPart (va : Nat) (data : Bytes) (sheet : Nat) : Nat × Bytes :=
  if va ≤ sheet then (0, (data.drop (sheet - va)).take 256) else (va - sheet, data.take (256 - (va - sheet)))

/-- BAR4_ACCESS. -/
def aperture (write : Bool) (off len : Nat) (data : Bytes) (s : State) : State :=
  let k := s.rf Reg.HIF_B4_SEL 3 0
  let va := s.rf Reg.HIF_B4_BASE 11 0 * 2 ^ 36 + off
  let n := if write then data.length else len
  let s := hbmWake s
  if s.rf Reg.HIF_B4_SEL 4 4 = 0 ∨ (s.slot k).state = .empty then apertureMiss write n s
  else
    let s := (rangeFrom (va / 256) ((va + n + 255) / 256 - va / 256)).foldl (fun s j => xlatWalk k (256 * j) s) s
    match aperturePas s k va n (if write then .wr else .rd) with
    | none => apertureMiss write n s
    | some l =>
      if write then
        l.foldl (fun s e =>
          let p := sheetPart va data e.1
          s.hbmBytes (e.2 + p.1) p.2) s
      else
        let r := l.foldl (fun (r : State × Bytes) e =>
          let x := egress k e.1 e.2 r.1
          (x.1, r.2 ++ x.1.hbmSheet e.2)) (s, [])
        { r.1 with host := { r.1.host with b4 := (r.2.drop (va % 256)).take n } }

def execBar4Access (write : Bool) (off : BitVec 36) (len : Nat) (data : List Byte) (s : State) : Res :=
  .next (s.bar0 (aperture write off.toNat len data))

/-! ### Function-level reset (R363) -/

/-- Everything a function holds in the queue machinery is gone; commands accepted run to their end without an entry. -/
def dropQueues (f : Nat) (s : State) : State :=
  let s := (List.range 16).foldl (fun s q =>
    let s := disableQueue f q s
    s.setRf (Reg.queue f q 0x10) 31 31 0) s
  { s with host := { s.host with
    waiting := s.host.waiting.filter fun x => x.fn.val != f,
    held := s.host.held.filter fun e => e.2.fn.val != f,
    numbering := s.host.numbering.filter fun e => e.2.2.fn.val != f,
    accepted := s.host.accepted.map fun (a : Accepted) => if a.c.fn.val == f then { a with gone := true, credit := false } else a,
    used := tset 0 s.host.used f 0 } }

/-- A slot of a function that is reset, by its state. -/
def resetSlot (k : Nat) (s : State) : State :=
  let p := s.slot k
  let s := s.setSlot k { p with teardown := true }
  match p.state with
  | .empty => s.setSlot k p
  | .running => beginEnd k 5 0 (some 0) s
  | .stopping => s
  | .restoring => s
  | _ => teardownDone k s

/-- FLR of one function. A grid it owned is zeroed when no program of it stops on it any more (R437; log entry 48). -/
def flr1 (f : Nat) (s : State) : State :=
  let s := dropQueues f s
  let mine := (List.range 16).filter fun k => ((s.slot k).owner.map (·.val)) == some f
  let s := mine.foldl (fun s k => resetSlot k s) s
  let s := if f = 0 then { s.setRf Reg.SEC_SPDM 3 0 0 with mgmt := { s.mgmt with talk := tset [] s.mgmt.talk 0 [] } } else s
  zeroOwned f s

/-- FLR of PF0 resets every VF too. -/
def flr (f : Nat) (s : State) : State := if f = 0 then (List.range 9).foldl (fun s g => flr1 g s) s else flr1 f s

def execFlr (fn : FnNo) (s : State) : Res := .next (flr fn.val s)

/-- VF_ENABLE_CLEAR: every VF is reset. -/
def vfClear (s : State) : State := (rangeFrom 1 8).foldl (fun s g => flr1 g s) s

def execVfEnableClear (s : State) : Res := .next (vfClear s)

/-- The PCIe controller is released: the device is powered and has completed stage 0 (R373, R376). -/
def State.pcieUp (s : State) : Bool := s.md.supply == .on && s.passed 0

/-- PERST_RESET, the reset and its release: PF0 is reset, and a controller that is released retrains the link (R373, R376). -/
def perst (s : State) : State :=
  if s.pcieUp then
    let s := flr 0 s
    idleFits { linkTrained s with host := { (linkTrained s).host with d3 := false } }
  else s

def execPerstReset (s : State) : Res := .next (perst s)

/-! ### Surprise removal (R364) -/

/-- A command that still needs DMA. -/
def needsDma (c : HostCmd) : Bool := c.op == 1 || c.op == 6 || c.op == 7

/-- SURPRISE_REMOVAL: the PCIe link goes down without D3. -/
def surpriseRemoval (s : State) : State :=
  if s.host.link ∧ ¬ s.host.d3 then
    let lost := (s.host.accepted.filter fun a => !a.gone).length + (s.host.waiting.filter fun x => x.ty == 0).length
    let cut := (s.host.accepted.filter fun a => needsDma a.c).length
    let s := s.log1 Ev.SURPRISE_REMOVAL (Src.node 0)
      (leBytes lost 2 ++ leBytes (((s.slots.find? fun e => e.2.state == .running).map (·.1)).getD 0xFF) 1 ++ leBytes 0 1 ++ leBytes cut 4)
    let s := (List.range 144).foldl (fun s n => (disableQueue (n / 16) (n % 16) s).setRf (Reg.queue (n / 16) (n % 16) 0x10) 31 31 0) s
    let s := { s with host := { s.host with
      link := false, pcie := { s.host.pcie with speed := 0, width := 0 }, used := [], waits := s.host.waits.filter fun w => !needsDma w.2,
      accepted := (s.host.accepted.filter fun a => !needsDma a.c).map fun (a : Accepted) => { a with gone := true, credit := false } } }
    (List.range 144).foldl (fun s n => settleQueue (n / 16) (n % 16) s) s
  else s

def execSurpriseRemoval (s : State) : Res := .next (surpriseRemoval s)

end Sys2Proof.Machine
end

