-- ==== Sys2Proof/Machine/Flash.lean ====
section
/-!
DEFINITION. The configuration flash (R368, R369), its directory and calibration sectors (R378, R379), the flash
commands (R380–R383), and the fused security version (R428).
-/
namespace Sys2Proof.Machine

/-! ### Contents -/

/-- A 4 KiB page of the flash: as last written, or as the factory left it. -/
def State.flashPage (s : State) (n : Nat) : Bytes :=
  match tfind s.boot.flash n with
  | some p => p
  | none => (rangeFrom (4096 * n) 4096).map fun a => Config.flash a

def State.flashRead (s : State) (a n : Nat) : Bytes :=
  (((rangeFrom (a / 4096) ((a + n + 4095) / 4096 - a / 4096)).flatMap s.flashPage).drop (a % 4096)).take n

def State.flashPut (s : State) (n : Nat) (b : Bytes) : State :=
  { s with boot := { s.boot with flash := tset [] s.boot.flash n (padTo b 4096) } }

/-- A 64 KiB sector erased. -/
def State.flashErase (s : State) (sector : Nat) : State :=
  (rangeFrom (16 * sector) 16).foldl (fun s n => s.flashPut n (List.replicate 4096 0xFF)) s

/-- n free bytes (log entry 2). -/
def freeBytes (n : Nat) (s : State) : Bytes × State :=
  ((rangeFrom s.freeN n).map fun k => (Config.freeWord k).setWidth 8, { s with freeN := s.freeN + n })

/-- Pages with free bytes. -/
def flashFree (first n : Nat) (s : State) : State :=
  (rangeFrom first n).foldl (fun s p => let f := freeBytes 4096 s; f.2.flashPut p f.1) s

/-! ### Directory (R369) -/

/-- Sector of a directory copy. -/
def dirSector (k : Nat) : Nat := if k = 0 then 0 else 3

/-- A directory copy with a good CRC: its generation and preferred slot. -/
def dirCopy (s : State) (k : Nat) : Option (Nat × Nat) :=
  let b := s.flashRead (0x10000 * dirSector k) 4096
  if crc32c (b.take 4092) = leWord (b.drop 4092) then some (leAt b 4 4, if leAt b 0 1 = 1 then 1 else 0) else none

/-- The copy that holds the higher valid generation, with that copy's contents. -/
def dirBest (s : State) : Option (Nat × Nat × Nat) :=
  match dirCopy s 0, dirCopy s 1 with
  | some a, some b => if a.1 < b.1 then some (1, b.1, b.2) else some (0, a.1, a.2)
  | some a, none => some (0, a.1, a.2)
  | none, some b => some (1, b.1, b.2)
  | none, none => none

/-- The slot the boot ROM tries first: 0 A, 1 B. -/
def preferredSlot (s : State) : Nat := ((dirBest s).map (·.2.2)).getD 0

/-! ### Calibration sets (R378, R379) -/

/-- The first check that a calibration set fails: the reason of R383 and the byte offset. -/
def calFault (b : Bytes) : Option (Nat × Nat) :=
  let bytes (lo n : Nat) (ok : Nat → Bool) : Option Nat := (rangeFrom lo n).find? fun o => !ok (leAt b o 1)
  let zero (lo n : Nat) : Option Nat := bytes lo n (· == 0)
  let top (lo n : Nat) (m : Nat) : Option Nat := (List.range n).findSome? fun k => if leAt b (lo + 4 * k + 3) 1 < m then none else some (lo + 4 * k)
  if leAt b 0 4 ≠ 0x4F5ACA11 then some (1, 0)
  else if leAt b 4 2 ≠ 1 then some (1, 4)
  else if leAt b 8 8 ≠ Config.serial.toNat then some (7, 8)
  else if crc32c (b.take 4092) ≠ leWord (b.drop 4092) then some (6, 4092)
  else
    let order := if leAt b 44 1 < leAt b 45 1 ∧ leAt b 45 1 < leAt b 46 1 then none else some 44
    let origin := if leAt b 6 2 ≤ 2 then none else some 6
    ([origin, zero 20 4, bytes 24 20 (fun v => decide (10 ≤ v ∧ v ≤ 80)), order, zero 47 17, zero 146 46, top 192 96 64, top 576 8 1,
      zero 608 3484].findSome? id).map fun o => (8, o)

def calSector (s : State) (k : Nat) : Bytes := s.flashRead (0x10000 * (1 + k)) 4096

/-- The sector of the stored set: the valid one of higher CS_GEN. -/
def calBest (s : State) : Option Nat :=
  let ok (k : Nat) : Bool := (calFault (calSector s k)).isNone
  let gen (k : Nat) : Nat := leAt (calSector s k) 16 4
  if ok 0 ∧ ok 1 then some (if gen 0 < gen 1 then 1 else 0) else if ok 0 then some 0 else if ok 1 then some 1 else none

/-- IMAGE_REJECTED (R383). -/
def imageRejected (what why off : Nat) (s : State) : State :=
  s.log1 Ev.IMAGE_REJECTED (Src.node 0) (leBytes what 1 ++ leBytes why 1 ++ leBytes 0 2 ++ leBytes off 4)

/-! ### Flash commands (R380) -/

abbrev flRead : Nat := 1
abbrev flErase : Nat := 2
abbrev flProgram : Nat := 3
abbrev flSetPref : Nat := 4
abbrev flCalRead : Nat := 5
abbrev flCalCommit : Nat := 6

/-- A refused command (R380, R382). -/
def flashRefuse (why : Nat) (s : State) : State := (s.setRf Reg.BOOT_FL_STATUS 7 4 0).setBits Reg.BOOT_FL_STATUS (16 * why)

/-- The directory, a calibration sector, or the slot the device booted from; in RECOVERY it booted from none. -/
def flashProtected (s : State) (a : Nat) : Bool :=
  decide (a < 0x40000) ||
    (s.rf Reg.BOOT_STATUS 31 28 != 8 &&
      (let b := if s.rf Reg.BOOT_STATUS 26 26 = 0 then 0x400000 else 0x2200000
       decide (b ≤ a ∧ a < b + 0x1E00000)))

/-- The window as bytes. -/
def windowBytes (s : State) : Bytes := mread s.boot.window 0 4096
def setWindow (b : Bytes) (s : State) : State := { s with boot := { s.boot with window := mwrite [] 0 (b.take 4096) } }

/-- A CAL_COMMIT refused because a command runs is logged too; R383 names no reason and no offset for it: free values (log
entry 144). -/
def commitBusy (s : State) : State :=
  let w := s.takeFree
  let o := w.2.takeFree
  imageRejected 3 (w.1.toNat % 256) o.1.toNat o.2

/-- A write of BOOT_FL_CMD: refused, or the command runs until FLASH_CMD_DONE. -/
def flashCmd (op : Nat) (s : State) : State :=
  let a := s.rf Reg.BOOT_FL_ADDR 25 0
  let size := if op = flErase then 0x10000 else if op = flRead ∨ op = flProgram then 0x1000 else 1
  if s.boot.busy.isSome then flashRefuse 3 (if op = flCalCommit then commitBusy s else s)
  else if a % size ≠ 0 then flashRefuse 1 s
  else if (op = flErase ∨ op = flProgram) ∧ flashProtected s a then flashRefuse 2 s
  else
    match (if op = flCalCommit then calFault (windowBytes s) else none) with
    | some e => imageRejected 3 e.1 e.2 (flashRefuse 4 s)
    | none => { s.setRf Reg.BOOT_FL_STATUS 31 31 1 with boot := { s.boot with busy := some (op, a) } }

def execFlashRead (s : State) : Res := .next (s.bar0 (flashCmd flRead))
def execFlashErase (s : State) : Res := .next (s.bar0 (flashCmd flErase))
def execFlashProgram (s : State) : Res := .next (s.bar0 (flashCmd flProgram))
def execSetPref (s : State) : Res := .next (s.bar0 (flashCmd flSetPref))
def execCalRead (s : State) : Res := .next (s.bar0 (flashCmd flCalRead))
def execCalCommit (s : State) : Res := .next (s.bar0 (flashCmd flCalCommit))

/-- The copy SET_PREF programs. -/
def prefCopy (s : State) : Nat :=
  match dirBest s with
  | some (0, _) => 1
  | _ => 0

/-- SET_PREF: bytes of the copy that R369 does not name are open (log entry 51). -/
def setPrefDone (slot : Nat) (s : State) : State :=
  let k := prefCopy s
  let gen := leAt (s.flashRead (0x10000 * dirSector (1 - k)) 4096) 4 4 + 1
  let f := freeBytes 4096 (s.flashErase (dirSector k))
  let b := leBytes slot 1 ++ sub f.1 1 3 ++ leBytes gen 4 ++ sub f.1 8 4084
  f.2.flashPut (16 * dirSector k) (b ++ leBytes (crc32c b).toNat 4)

/-- CAL_COMMIT: the window with CS_ORIGIN 2, the next CS_GEN and a fresh CRC goes to the other sector; then the old
sector is erased. With no stored set before, the generation is open (log entry 51). -/
def calCommitDone (s : State) : State :=
  let w := windowBytes s
  let old := calBest s
  let g : Nat × State := match old with
    | some k => (leAt (calSector s k) 16 4 + 1, s)
    | none => let f := s.takeFree; (f.1.toNat, f.2)
  let s := g.2
  let b := sub w 0 6 ++ leBytes 2 2 ++ sub w 8 8 ++ leBytes g.1 4 ++ sub w 20 4072
  let k := match old with
    | some 0 => 1
    | _ => 0
  let s := (s.flashErase (1 + k)).flashPut (16 * (1 + k)) (b ++ leBytes (crc32c b).toNat 4)
  let s := match old with
    | some o => s.flashErase (1 + o)
    | none => s
  let s := s.log1 Ev.CAL_WRITTEN (Src.node 0) (leBytes g.1 4 ++ leBytes (s.rf Reg.BOOT_FL_STATUS 3 3) 1)
  s.setRf Reg.BOOT_FL_STATUS 3 3 0

/-- The effect of a command that completes. -/
def flashEffect (op a : Nat) (s : State) : State :=
  match op with
  | 1 => setWindow (s.flashRead a 4096) s
  | 2 => s.flashErase (a / 0x10000)
  | 3 => s.flashPut (a / 4096) (windowBytes s)
  | 4 => setPrefDone (a % 2) s
  | 5 =>
    let s := match calBest s with
      | some k => setWindow (calSector s k) s
      | none => let f := freeBytes 4096 s; setWindow f.1 f.2
    s.setRf Reg.BOOT_FL_STATUS 3 3 1
  | _ => calCommitDone s

/-- A command cut off by a loss of power, or failed by the flash device: what it was writing holds free bytes. A
CAL_COMMIT and a SET_PREF leave what R380 keeps good (log entry 52). -/
def flashBroken (op a : Nat) (s : State) : State :=
  match op with
  | 1 => let f := freeBytes 4096 s; setWindow f.1 f.2
  | 2 => flashFree (16 * (a / 0x10000)) 16 s
  | 3 => flashFree (a / 4096) 1 s
  | 4 => flashFree (16 * dirSector (prefCopy s)) 16 s
  | 5 => let f := freeBytes 4096 s; setWindow f.1 f.2
  | _ =>
    let w := s.takeFree
    if w.1.getLsbD 0 then calCommitDone w.2
    else
      let k := match calBest s with
        | some 0 => 1
        | _ => 0
      let s := flashFree (16 * (1 + k)) 16 w.2
      s.flashPut (16 * (1 + k)) (0xFF :: (s.flashPage (16 * (1 + k))).drop 1)

/-- A command is over. -/
def flashDone (devErr : Bool) (s : State) : State :=
  match s.boot.busy with
  | none => s
  | some (op, a) =>
    let s := if devErr then flashRefuse 5 (flashBroken op a s) else (flashEffect op a s).setRf Reg.BOOT_FL_STATUS 2 0 op
    { s.setRf Reg.BOOT_FL_STATUS 31 31 0 with boot := { s.boot with busy := none } }

/-! ### Fused security version (R428) -/

/-- The fused SVN. -/
def State.svnFused (s : State) : Nat := max Config.svnFuse.toNat s.sec.svn

/-- SS_SVN_IMG. -/
def State.svnImage (s : State) : Nat := s.rf Reg.SEC_STATUS 21 16

/-- AUTH_FAIL (R441). -/
def authFail (cause : Nat) (v : Word) (s : State) : State :=
  let s := (s.setBits Reg.SEC_STATUS 1).bump Reg.SEC_AUTHF_COUNT 1
  s.log1 Ev.AUTH_FAIL (Src.node 0)
    (leBytes cause 1 ++ leBytes s.svnImage 1 ++ leBytes s.svnFused 1 ++ leBytes 0 1 ++ leBytes v.toNat 4)

/-- The value that a write of SEC_SVN_CMD raises the fused SVN with, or a failure (R428). -/
def svnRaise (v : Word) (s : State) : State :=
  if v = 0x53564E31 ∧ s.svnFused < s.svnImage ∧ s.rf Reg.BOOT_STATUS 25 25 = 0 then
    { s with sec := { s.sec with burn := some s.svnImage } }
  else authFail 3 v s

/-- SVN_RAISE: a write of SEC_SVN_CMD, which firmware serves (R374, R428). -/
def svnWrite (v : Word) (s : State) : State := s.firmware (svnRaise v)

def execSvnRaise (v : Word) (s : State) : Res := .next (s.bar0 (svnWrite v))

/-- SVN_BURN_DONE. -/
def svnBurned (s : State) : State :=
  match s.sec.burn with
  | some n => { s with sec := { s.sec with svn := max s.sec.svn n, burn := none } }
  | none => s

def execSvnBurnDone (s : State) : Res := .next (svnBurned s)

/-- A burn cut off leaves a fused SVN between the old and the new one (log entry 52). -/
def svnCut (s : State) : State :=
  match s.sec.burn with
  | some n =>
    let w := s.takeFree
    let lo := s.svnFused
    { w.2 with sec := { w.2.sec with svn := lo + w.1.toNat % (n - lo + 1), burn := none } }
  | none => s

/-! ### Test port (R439) -/

/-- Bytes of a memory that the test port reads. -/
def testRead (m : TestMem) (a n : Nat) (s : State) : Bytes :=
  match m with
  | .tileStore => mread s.mem.ts a n
  | .reservoir => mread s.mem.rsv a n
  | .hbm => mread s.mem.hbm a n

/-- Bytes of a memory that the test port writes, without a check and without check bits (log entry 182). -/
def testWrite (m : TestMem) (a : Nat) (d : Bytes) (s : State) : State :=
  match m with
  | .tileStore => { s with mem := { s.mem with ts := mwrite s.mem.ts a d } }
  | .reservoir => { s with mem := { s.mem with rsv := mwrite s.mem.rsv a d } }
  | .hbm => { s with mem := { s.mem with hbm := mwrite s.mem.hbm a d } }

/-- The access takes place. -/
def testDone (s : State) : TestAccess → State
  | .scan => s
  | .read m a n => { s with mgmt := { s.mgmt with resp := some (.testData (testRead m a n s)) } }
  | .write m a d => testWrite m a d s

/-- Size of a memory that the test port reaches. -/
def testSize : TestMem → Nat
  | .tileStore => 2304 * tsSize
  | .reservoir => 4 * 0x6000000
  | .hbm => hbmSize

/-- An access lies within its memory. -/
def testInside : TestAccess → Bool
  | .scan => false
  | .read m a n => decide (a + n ≤ testSize m)
  | .write m a d => decide (a + d.length ≤ testSize m)

/-- TEST_PORT_ACCESS: ignored and logged under the debug lock, at most once per second; without it the port reaches memories, and
scan chains, whose contents the spec does not give. -/
def execTestPortAccess (p : TestPort) (s : State) : Res :=
  if Config.debugLock then .next (if p.first then authFail 2 0 s else s)
  else if testInside p.access then .next (testDone s p.access)
  else .refused .testPortOpen

end Sys2Proof.Machine
end

