-- ==== Sys2Proof/Machine/Boot.lean ====
section
/-!
DEFINITION. The configuration image and its verification (R370, R371, R426, R427), start-up from power good or a reset
to READY (R372–R374), the resets (R376, R377), identity key generation (R429, R430), and the supply of the rails (R384,
R386, R397, R460, R461).
-/
namespace Sys2Proof.Machine

/-! ### PCIe identity (R470) -/

/-- Identification of a function in its configuration space, and the subsystem identity, as its image states it (log entry
145). -/
structure PciId where
  vendor : BitVec 16
  device : BitVec 16
  classCode : BitVec 24
  subsys : Bytes
  deriving DecidableEq, Repr

/-- The configuration space of a function, served from the end of stage 3 (R373, R470). -/
def pciId (s : State) (f : FnNo) : Option PciId :=
  if s.served then some ⟨0x1F3D, if f.val = 0 then 0x0E71 else 0x0E72, 0x120000, s.boot.subsys⟩ else none

/-! ### The configuration image (R370, R427) -/

/-- A check of an image: the reason of R383 and the byte offset of the fault. -/
abbrev Ci := Except (Nat × Nat)

def ciNeed (c : Bool) (why off : Nat) : Ci Unit := if c then .ok () else .error (why, off)

def ciEach {α : Type} (l : List α) (f : α → Ci Unit) : Ci Unit :=
  match l with
  | [] => .ok ()
  | a :: r => do
    f a
    ciEach r f

/-- What start-up takes from an image. -/
structure ConfImage where
  keyIdx : Nat
  svn : Nat
  fwrev : Nat
  firmware : Bytes
  digest : Bytes
  presets : List (Nat × Word)
  /-- contents of the sections of type 0x05, PCIe subsystem identity -/
  subsys : Bytes

def slotBase (k : Nat) : Nat := if k = 0 then 0x400000 else 0x2200000

/-- Bits a preset entry may set in the register at a BAR0 offset (R371). -/
def presetMask (n : Nat) : Word :=
  if n = Reg.MESH_CTRL then 0xFF
  else if 0x10040 ≤ n ∧ n < 0x10054 ∧ n % 4 = 0 then 0xFFFF
  else 0

/-- The image of a slot, or its first fault: header, section table, signature block, section CRCs, presets. -/
def verifyImage (s : State) (k : Nat) : Ci ConfImage := do
  let h := s.flashRead (slotBase k) 4096
  ciNeed (leAt h 0 4 == 0x4F5AC0F6) 1 0
  ciNeed (leAt h 4 2 == 1) 1 4
  ciNeed (leAt h 6 1 == s.rf Reg.ID_PART 7 0) 2 6
  let len := leAt h 8 4
  let nsect := leAt h 16 4
  let table := leAt h 20 4
  let sig := leAt h 24 4
  ciNeed (decide (8192 ≤ len ∧ len ≤ 0x1E00000)) 3 8
  ciNeed (decide (1 ≤ nsect ∧ nsect ≤ 64)) 3 16
  ciNeed (sig == len - 4096) 3 24
  ciNeed (decide (table + 16 * nsect ≤ sig)) 3 20
  let img := s.flashRead (slotBase k) len
  let sects := (records 16 (sub img table (16 * nsect))).zipIdx
  ciEach sects fun e => ciNeed (decide (1 ≤ leAt e.1 0 4 ∧ leAt e.1 0 4 ≤ 5)) 3 (table + 16 * e.2)
  ciEach sects fun e => ciNeed (decide (leAt e.1 4 4 + leAt e.1 8 4 ≤ sig)) 3 (table + 16 * e.2 + 4)
  let sb := img.drop sig
  let key := leAt sb 4 1
  let pub := sub sb 8 1793
  let d := Config.shake256 (img.take sig ++ sb.take 8) 64
  ciNeed (leAt sb 0 4 == 0x4F5A5316 && leAt sb 6 2 == 1280) 4 sig
  ciNeed (decide (key < 4) && !Config.revoked.getLsbD key) 4 (sig + 4)
  ciNeed (Config.shake256 pub 32 == (Config.keyDigest ⟨key % 4, Nat.mod_lt _ (by decide)⟩).toList) 4 (sig + 4)
  ciNeed (decide (s.svnFused ≤ leAt sb 5 1)) 4 (sig + 5)
  ciNeed (Config.falconVerify pub d (sub sb 1808 1280)) 4 (sig + 1808)
  ciEach sects fun e => ciNeed (crc32c (sub img (leAt e.1 4 4) (leAt e.1 8 4)) == leWord (sub e.1 12 4)) 6 (leAt e.1 4 4)
  let body (ty : Nat) (e : Bytes) : Bytes := if leAt e 0 4 = ty then sub img (leAt e 4 4) (leAt e 8 4) else []
  let presets := sects.flatMap fun e => (records 8 (body 4 e.1)).zipIdx.map fun p => (leAt e.1 4 4 + 8 * p.2, leAt p.1 0 4, leWord (sub p.1 4 4))
  ciEach presets fun p => ciNeed (p.2.2 &&& ~~~(presetMask p.2.1) == 0 && presetMask p.2.1 != 0) 5 p.1
  .ok { keyIdx := key, svn := leAt sb 5 1 % 64, fwrev := leAt h 12 4, firmware := sects.flatMap fun e => body 1 e.1 ++ body 2 e.1, digest := d,
        presets := presets.map (·.2), subsys := sects.flatMap fun e => body 5 e.1 }

/-- A slot is tried; a rejected one is logged (R374). -/
def tryImage (k : Nat) (s : State) : State × Option ConfImage :=
  match verifyImage s k with
  | .ok im => (s, some im)
  | .error e => (imageRejected k e.1 e.2 s, none)

/-- Firmware applies a preset; a reserved encoding leaves the field (R13, R178, R400). -/
def applyPreset (n : Nat) (v : Word) (s : State) : State :=
  if n = Reg.MESH_CTRL then (if 0x10 ≤ v.toNat then s.setRf n 7 0 v.toNat else s)
  else
    let m := Reg.railMax ((n - 0x10040) / 4)
    if m ≤ 10 * wfld v 15 0 ∧ wfld v 15 0 ≤ m then s.setRf n 15 0 (wfld v 15 0) else s

/-! ### Calibration at stage 3 (R378, R379) -/

/-- The factory calibration takes its places. -/
def applyCal (b : Bytes) (s : State) : State :=
  let s := { s with clk := { s.clk with dt := (List.range 20).foldl (fun t k => tset 0 t k (leAt b (24 + k) 1)) [] },
                    pwr := { s.pwr with offsets := (List.range 64).foldl (fun t k => tset 0 t k (BitVec.ofNat 16 (leAt b (64 + 2 * k) 2))) [] },
                    presets := (List.range 8).foldl (fun t k => tset 0 t k (leAt b (576 + 4 * k) 3)) [] }
  let s := s.setReg Reg.CLK_FB_THRESH (BitVec.ofNat 32 (leAt b 46 1 * 65536 + leAt b 45 1 * 256 + leAt b 44 1))
  (List.range 96).foldl (fun s n => s.setReg (Reg.port (n / 8) (0x20 + 4 * (n % 8))) (BitVec.ofNat 32 (leAt b (192 + 4 * n) 4))) s

/-- The defaults where no sector holds a valid set: preset P0 has c(0) at its maximum code. -/
def calDefaults (s : State) : State :=
  let s := { s with clk := { s.clk with dt := (List.range 20).map fun k => (k, 10) }, presets := [(0, 63 * 2 ^ 12)] }
  let s := s.setReg Reg.CLK_FB_THRESH (BitVec.ofNat 32 (120 * 65536 + 80 * 256 + 60))
  setRequest 4 8 (s.setRf Reg.BOOT_STATUS 24 24 1)

/-- The stored set is loaded and measured. -/
def loadCal (s : State) : State :=
  let meas (b : Bytes) (s : State) : State := { s with sec := { s.sec with meas := tset [] s.sec.meas 4 (Config.shake256 b 64) } }
  match calBest s with
  | some k => let b := calSector s k; meas b (applyCal b s)
  | none =>
    let e := (calFault (calSector s 0)).getD (0, 0)
    meas (List.replicate 4096 0) (calDefaults (imageRejected 2 e.1 e.2 s))

/-! ### Identity (R429, R430) -/

/-- SS_DBGLOCK. -/
def debugLockBit : Nat := b2n Config.debugLock

/-- The identity seed IS: "OZ-ID", the device seed, ID_STEP and SS_DBGLOCK. -/
def identitySeed (s : State) : Bytes :=
  Config.shake256 ([0x4F, 0x5A, 0x2D, 0x49, 0x44] ++ Config.idSeed.toList ++ leBytes (s.rf Reg.ID_PART 7 0) 1 ++ leBytes debugLockBit 1) 48

/-- IDENTITY_KEY_READY. -/
def identityReady (s : State) : State :=
  if s.sec.keying then
    let s := { s with sec := { s.sec with keying := false } }
    if Config.shake256 (Config.falconKey (identitySeed s)).1 32 = Config.idKeyDigest.toList then s.setRf Reg.SEC_STATUS 30 30 1
    else authFail 1 0 (s.setRf Reg.SEC_STATUS 29 29 1)
  else s

def execIdentityKeyReady (s : State) : Res := .next (identityReady s)

/-! ### Start-up (R372–R374) -/

/-- The stage that runs ends, and another begins, of which a PLDM event tells (R467, R468). -/
def enterStage (k : Nat) (s : State) : State :=
  (if s.stage = k then s else s.pldmEvent 70 (BitVec.ofNat 32 k)).setRf Reg.BOOT_STATUS 31 28 k

/-- Start-up is over. -/
def bootEnds (s : State) : State := { s with boot := { s.boot with plan := none } }

/-- FAILED: the kind and the unit. -/
def bootFail (kind : Nat) (unit : BitVec 12) (s : State) : State :=
  bootEnds (((enterStage 9 s).setRf Reg.BOOT_STATUS 15 12 kind).setRf Reg.BOOT_STATUS 11 0 unit.toNat)

/-- SPARE_IN_USE, once per row of tiles that uses its spare (R413). -/
def spareLog (s : State) : State :=
  (List.finRange 48).foldl (fun s r =>
    if Config.spareUsed r then s.log1 Ev.SPARE_IN_USE (Src.node 0) (leBytes r.val 1 ++ leBytes (Config.retiredColumn r).val 1)
    else s) s

/-- The slot that start-up tries: the preferred one, or the other after a fallback. -/
def bootSlot (s : State) : Nat := if s.rf Reg.BOOT_STATUS 25 25 = 1 then 1 - preferredSlot s else preferredSlot s

/-- Stage 2 ends: the image boots, or the other slot is read, or, with neither, the device is in RECOVERY (R374). -/
def verifyStage (s : State) : State :=
  let k := bootSlot s
  match tryImage k s with
  | (s, some _) => enterStage 3 (s.setRf Reg.BOOT_STATUS 26 26 k)
  | (s, none) =>
    if s.rf Reg.BOOT_STATUS 25 25 = 1 then bootEnds (enterStage 8 s)
    else enterStage 1 (s.setRf Reg.BOOT_STATUS 25 25 1)

/-- What firmware takes from the image that booted, and the calibration (R371, R379, R430, R432). -/
def firmwareStart (im : ConfImage) (s : State) : State :=
  let s := (s.setRf Reg.SEC_STATUS 27 26 im.keyIdx).setRf Reg.SEC_STATUS 21 16 im.svn
  let m := tset [] (tset [] s.sec.meas 2 (Config.shake256 im.firmware 64)) 3 im.digest
  let s := { s with sec := { s.sec with meas := m, fwrev := BitVec.ofNat 32 im.fwrev, keying := true }, boot := { s.boot with subsys := im.subsys } }
  loadCal (im.presets.foldl (fun s p => applyPreset p.1 p.2 s) s)

/-- Stage 3 ends: firmware runs, and BAR0 is served from here on (R373). -/
def firmwareStage (s : State) : State :=
  match verifyImage s (bootSlot s) with
  | .ok im => enterStage 4 (firmwareStart im s)
  | .error _ => s

/-- Stage 5 begins with every polder ACTIVE (R227); it ends with the calibration set in the ports, which begin to train
(R372). -/
def calibrationStage (o : BootOutcome) (s : State) : State :=
  match o with
  | .sluice u => bootFail 3 u s
  | _ => linkControl (enterStage 6 s)

/-- Stage 6 ends: the boot lock is set, and the identity key is there (R429). A warm reset finds nothing in the fuses, so that a start-up that was to fail there
takes a free time (R376). -/
def selfTestStage (o : BootOutcome) (s : State) : State :=
  let ready (ms : Word) (s : State) : State :=
    bootEnds (((enterStage 7 (identityReady (testFrames (spareLog s)))).setRf Reg.BOOT_STATUS 27 27 1).setReg Reg.BOOT_TIME ms)
  match o with
  | .tileBeyondSpares u => bootFail 2 u s
  | .ok ms => ready ms s
  | _ => ready s.takeFree.1 s.takeFree.2

/-- The stage of start-up that runs ends (R372, R374). The PCIe link has trained by the end of stage 1 (R373; log entry
53). -/
def bootStage (s : State) : State :=
  match s.boot.plan with
  | none => s
  | some o =>
    match s.stage with
    | 0 => match o with
      | .fuseRead u => bootFail 4 u s
      | _ => enterStage 1 s
    | 1 => enterStage 2 (linkTrained s)
    | 2 => verifyStage s
    | 3 => firmwareStage s
    | 4 => match o with
      | .hbmStack u => bootFail 1 u s
      | _ => enterStage 5 (polderStates 0 s)
    | 5 => calibrationStage o s
    | 6 => selfTestStage o s
    | _ => s

/-- Start-up of a cleared device begins, with BS_RESET: a cold one with the fuses, a warm one with the image. -/
def startUp (code : Nat) (cold : Bool) (o : BootOutcome) (s : State) : State :=
  let s := { s.setRf Reg.BOOT_STATUS 18 16 code with boot := { s.boot with started := true, plan := some o } }
  enterStage (if cold then 0 else 1) { s with sec := { s.sec with meas := tset [] s.sec.meas 1 (Config.shake256 Config.rom 64) } }

/-! ### What resets keep (R376) -/

/-- The device without anything that a cold reset clears: flash, fuses and what lies outside the device stay. -/
def coldClear (s : State) : State :=
  { State.reset with
    boot := { flash := s.boot.flash }, sec := { svn := s.sec.svn }, host := { mem := s.host.mem, bad := s.host.bad }, irq := s.irq,
    md := s.md, pending := s.pending, ticks := s.ticks, uid := s.uid, freeN := s.freeN }

/-- Registers a warm reset keeps: the logbook's, those that hold since cold reset, and the sums of R473, which return
to 0 only as their own table or chapter states. -/
def warmKeeps (n : RegNo) : Bool :=
  decide (0x70000 ≤ n ∧ n < 0x71000) ||
    [Reg.CLK_STRETCH_LO, Reg.CLK_STRETCH_HI, Reg.LL_BALLAST_J_LO, Reg.LL_BALLAST_J_HI, Reg.RAS_RETIRED, Reg.PRG_REJECT,
     Reg.PRG_REJECT_LOC, Reg.TRN_WV_STALL_CYC_LO, Reg.TRN_WV_STALL_CYC_HI, Reg.QUE_MISS_CYC_LO, Reg.QUE_MISS_CYC_HI,
     Reg.PULP_OVR_CYC_LO, Reg.PULP_OVR_CYC_HI, Reg.RED_WAIT_LO, Reg.RED_WAIT_HI].contains n

/-- A warm reset also keeps the logbook with its registers, its state and the errors in it, the ballast energy below 1 J, the frames retired or recorded (R412), and
BF_CALREAD, which a cold reset ends (R382). -/
def warmClear (s : State) : State :=
  let c : State := { coldClear s with
    log := s.log, regs := { val := s.regs.val.filter (fun e => warmKeeps e.1) }, latch := s.latch.filter (fun e => warmKeeps e.1),
    mem := { recorded := s.mem.recorded, retired := s.mem.retired, ecc := s.mem.ecc.filter fun e => e.1 / 2 ^ 48 == placeLog },
    pwr := { energy := s.pwr.energy } }
  c.setRf Reg.BOOT_FL_STATUS 3 3 (s.rf Reg.BOOT_FL_STATUS 3 3)

/-- A reset takes effect: cold or warm, by the host or by PLDM. -/
def doReset (cold byPldm : Bool) (o : BootOutcome) (s : State) : State :=
  let s := svnCut s
  if cold then startUp (if byPldm then 2 else 1) true o (coldClear s) else startUp (if byPldm then 4 else 3) false o (warmClear s)

/-- BR_CMD: it waits for a flash command that is running; a second one is discarded, unless it names a cold reset where
the first named a warm one (R377). -/
def brCmd (cold byPldm : Bool) (o : BootOutcome) (s : State) : State :=
  if s.md.supply ≠ .on then s
  else if s.boot.busy.isSome then
    match s.boot.next with
    | none => { s with boot := { s.boot with next := some (cold, byPldm) } }
    | some (false, _) => if cold then { s with boot := { s.boot with next := some (cold, byPldm) } } else s
    | some (true, _) => s
  else doReset cold byPldm o s

def execColdReset (byPldm : Bool) (o : BootOutcome) (s : State) : Res := .next (brCmd true byPldm o s)
def execWarmReset (byPldm : Bool) (o : BootOutcome) (s : State) : Res := .next (brCmd false byPldm o s)

/-- FLASH_CMD_DONE: the command ends, and a BR_CMD that waited takes effect. -/
def flashCmdDone (devErr : Bool) (o : BootOutcome) (s : State) : State :=
  if s.boot.busy.isSome then
    let s := flashDone devErr s
    match s.boot.next with
    | some (cold, byPldm) => doReset cold byPldm o s
    | none => s
  else s

def execFlashCmdDone (devErr : Bool) (o : BootOutcome) (s : State) : Res := .next (flashCmdDone devErr o s)

/-! ### Supply (R384, R460, R461) -/

/-- Every rail is removed: what the device holds is lost, but for flash and fuses. -/
def powerOff (l : Latch) (s : State) : State :=
  let s := match s.boot.busy with
    | some (op, a) => flashBroken op a s
    | none => s
  let s := coldClear (svnCut s)
  { s with host := { s.host with link := false, pcie := {} }, md := { s.md with supply := .off, latch := l } }

/-- The rails are up: start-up as at power-on. -/
def coldStart (o : BootOutcome) (s : State) : State :=
  startUp 0 true o (coldClear { s with md := { s.md with supply := .on, latch := .none } })

/-- POWER_GOOD: once after the rails have come on. -/
def powerGood (o : BootOutcome) (s : State) : State :=
  if s.md.supply = .on ∧ ¬ s.boot.started then coldStart o s else s

def execPowerGood (o : BootOutcome) (s : State) : Res := .next (powerGood o s)

/-- EN rises: the input capacitance is charged, at once or when the hold-off of 10 ms is over. -/
def enRise (s : State) : State :=
  if s.md.en then s
  else
    let go := ¬ s.md.holdoff ∧ ¬ s.md.locked ∧ s.md.latch = .none
    { s with md := { s.md with en := true, supply := if go then .charging else s.md.supply } }

def execEnRise (s : State) : Res := .next (enRise s)

/-- EN falls: power is removed at once. -/
def enFall (s : State) : State :=
  if s.md.en then
    let l := if s.md.latch = .untilLow then .untilLow else .none
    let s := if s.md.supply = .off then { s with md := { s.md with latch := l } } else powerOff l s
    { s with md := { s.md with en := false, holdoff := true } }
  else s

def execEnFall (s : State) : Res := .next (enFall s)

/-- EN_HOLDOFF_EXPIRY: 10 ms after the last fall of EN. -/
def holdoffExpiry (s : State) : State :=
  if s.md.holdoff then
    let s := { s with md := { s.md with holdoff := false } }
    if s.md.en then (if s.md.latch = .none ∧ ¬ s.md.locked then { s with md := { s.md with supply := .charging } } else s)
    else { s with md := { s.md with latch := .none } }
  else s

def execEnHoldoffExpiry (s : State) : Res := .next (holdoffExpiry s)

/-- CAPACITANCE_CHARGED: the rails start; PWRGD is released and start-up begins with POWER_GOOD (R460). -/
def charged (s : State) : State :=
  if s.md.supply = .charging then { s with md := { s.md with supply := .on }, boot := { s.boot with started := false } } else s

def execCapacitanceCharged (s : State) : Res := .next (charged s)

/-- INPUT_LOCKOUT. -/
def inputLockout (s : State) : State :=
  if s.md.locked then s
  else
    let s := if s.md.supply = .off then s else powerOff s.md.latch s
    { s with md := { s.md with locked := true } }

def execInputLockout (s : State) : Res := .next (inputLockout s)

/-- INPUT_LOCKOUT_END: while EN is high the module starts cold, unless it is held off for another reason. -/
def lockoutEnd (o : BootOutcome) (s : State) : State :=
  if s.md.locked then
    let s := { s with md := { s.md with locked := false } }
    if s.md.en ∧ ¬ s.md.holdoff ∧ s.md.latch = .none then coldStart o s else s
  else s

def execInputLockoutEnd (o : BootOutcome) (s : State) : Res := .next (lockoutEnd o s)

/-- RAIL_LIMIT_SHUTDOWN: rail 3 or 4 stayed at its limit for 1 ms. -/
def railShutdown (rail : Nat) (s : State) : State := if 3 ≤ rail ∧ s.md.supply = .on then powerOff .untilFall s else s

def execRailLimitShutdown (rail : Fin 5) (s : State) : Res := .next (railShutdown rail.val s)

/-- THERMAL_SHUTDOWN: the module stays off until EN has been low for 10 ms and has risen again. -/
def thermalShutdown (n : Nat) (s : State) : State := if (tripAt n).isSome ∧ s.md.supply = .on then powerOff .untilLow s else s

def execThermalShutdown (n : Fin 64) (s : State) : Res := .next (thermalShutdown n.val s)

end Sys2Proof.Machine
end

