-- ==== Sys2Proof/Machine/Trans.lean ====
section
/-!
DEFINITION. The transcendentals of the vector unit and the Couch (R70): the true value in fixed point with 600
fraction bits, then one rounding. Correct rounding of every FP32 input needs far fewer bits (log entry 4).
-/
namespace Sys2Proof.Machine

/-- Fraction bits of the fixed point. -/
abbrev fxF : Nat := 600
abbrev fxOne : Int := 2 ^ 600

def fxMul (a b : Int) : Int := (a * b) / 2 ^ 600
def fxDiv (a b : Int) : Int := (a * 2 ^ 600) / b

/-- m × 2^e in fixed point. -/
def fxOf (neg : Bool) (m : Nat) (e : Int) : Int :=
  let k := e + 600
  let v : Int := if 0 ≤ k then (m : Int) * 2 ^ k.toNat else (m : Int) / 2 ^ (-k).toNat
  if neg then -v else v

/-- Σ t^(2i+1)/(2i+1) with a sign per term: artanh (s = 1) or arctan (s = −1). -/
def fxOddSeries (s : Int) (t2 p : Int) (i : Nat) : Nat → Int
  | 0 => 0
  | n + 1 => p / (2 * i + 1) + fxOddSeries s t2 (s * fxMul p t2) (i + 1) n

def fxAtanh (t : Int) : Int := fxOddSeries 1 (fxMul t t) t 0 300
def fxAtanInv (k : Int) : Int := fxOddSeries (-1) (fxMul (fxOne / k) (fxOne / k)) (fxOne / k) 0 300

/-- ln 2 = 2 artanh(1/3), and π by Machin's formula. -/
def fxLn2 : Int := 2 * fxAtanh (fxOne / 3)
def fxPi : Int := 16 * fxAtanInv 5 - 4 * fxAtanInv 239

/-- Σ r^n / n!. -/
def fxExpSeries (r term : Int) (n : Nat) : Nat → Int
  | 0 => 0
  | k + 1 => term + fxExpSeries r (fxMul term r / (n + 1)) (n + 1) k

/-- e^x for a fixed-point x: mantissa and exponent. -/
def fxExp (x : Int) : Int × Int :=
  let k := x / fxLn2
  let r := x - k * fxLn2
  (fxExpSeries r fxOne 0 160, k - 600)

/-- An irrational value known to be v × 2^e up to its last bits, with a sticky bit. -/
def fxVal (neg : Bool) (v : Int) (e : Int) : FV := .fin neg (2 * v.natAbs + 1) (e - 1)

/-- A fixed-point value as an irrational result. -/
def fxRes (v : Int) : FV := fxVal (v < 0) v (-600)

def fvOne : FV := .fin false 1 0
/-- Just below 1, and a value far below the smallest subnormal. -/
def fvBelowOne (neg : Bool) : FV := .fin neg (2 ^ 100 - 1) (-100)
def fvTiny (neg : Bool) : FV := .fin neg 1 (-400)
def fvHuge : FV := .fin false 1 400

/-- |m × 2^e| is at least 2^k. -/
def atLeast (m : Nat) (e k : Int) : Bool := m != 0 && k ≤ lead m e

/-- e^x of a finite x. -/
def vExp (n : Bool) (m : Nat) (e : Int) : FV :=
  if m = 0 then fvOne
  else if atLeast m e 8 then (if n then fvTiny false else fvHuge)
  else
    let r := fxExp (fxOf n m e)
    fxVal false r.1 r.2

/-- 2^x of a finite x; exact for an integer. -/
def vExp2 (n : Bool) (m : Nat) (e : Int) : FV :=
  if m = 0 then fvOne
  else if atLeast m e 9 then (if n then fvTiny false else fvHuge)
  else
    let x := fxOf n m e
    let k := x / fxOne
    let f := x - k * fxOne
    if f = 0 then .fin false 1 k
    else
      let r := fxExp (fxMul f fxLn2)
      fxVal false r.1 (r.2 + k)

/-- ln x of a positive finite x, as a fixed-point value. -/
def fxLog (m : Nat) (e : Int) : Int :=
  let l := Nat.log2 m
  let y := fxOf false m (-(l : Int))
  let k : Int := (l : Int) + e
  let (y, k) := if 3 * y > 4 * fxOne then (y / 2, k + 1) else (y, k)
  k * fxLn2 + 2 * fxAtanh (fxDiv (y - fxOne) (y + fxOne))

/-- x is a power of two: its exponent. -/
def isPow2 (m : Nat) (e : Int) : Option Int := if m = 2 ^ Nat.log2 m then some (lead m e) else none

def vLog (m : Nat) (e : Int) : FV :=
  if isPow2 m e = some 0 then .fin false 0 0 else fxRes (fxLog m e)

def vLog2 (m : Nat) (e : Int) : FV :=
  match isPow2 m e with
  | some k => .fin (k < 0) k.natAbs 0
  | none => fxRes (fxDiv (fxLog m e) fxLn2)

/-- 1/√x of a positive finite x; exact for an even power of two. -/
def vRsqrt (m : Nat) (e : Int) : FV :=
  let odd := e % 2 ≠ 0
  let m := if odd then 2 * m else m
  let e := if odd then e - 1 else e
  let n := 2 ^ (400 + 2 * Nat.log2 m)
  let q := n / m
  let r := isqrt q
  let exact := r * r * m == n
  .fin false (2 * r + b2n (!exact)) (-(200 + Nat.log2 m : Nat) - e / 2 - 1)

/-- tanh; the sign of its value at −0 is open (log entry 139). -/
def vTanh (n : Bool) (m : Nat) (e : Int) : FV :=
  if m = 0 then .fin (n && Config.zeroNegative false) 0 0
  else if atLeast m e 6 then fvBelowOne n
  else
    let x := fxOf false m e
    let r := fxExp (2 * x)
    let y := if 0 ≤ r.2 + 600 then r.1 * 2 ^ (r.2 + 600).toNat else r.1 / 2 ^ (-(r.2 + 600)).toNat
    fxVal n (fxDiv (y - fxOne) (y + fxOne)) (-600)

def vSigmoid (n : Bool) (m : Nat) (e : Int) : FV :=
  if m = 0 then .fin false 1 (-1)
  else if atLeast m e 8 then (if n then fvTiny false else fvBelowOne false)
  else
    let r := fxExp (fxOf (!n) m e)
    let y := if 0 ≤ r.2 + 600 then r.1 * 2 ^ (r.2 + 600).toNat else r.1 / 2 ^ (-(r.2 + 600)).toNat
    if n then
      -- 1 / (1 + e^|x|), with 600 bits below its leading bit
      fxVal false ((2 ^ 1200 * fxOne) / (fxOne + y)) (-1200)
    else fxVal false (fxDiv fxOne (fxOne + y)) (-600)

/-- Σ (−1)^n x^(2n+1) / (n! (2n+1)). -/
def fxErfSeries (x2 p : Int) (n : Nat) : Nat → Int
  | 0 => 0
  | k + 1 => p / (2 * n + 1) + fxErfSeries x2 (-(fxMul p x2) / (n + 1)) (n + 1) k

/-- √v of a fixed-point v. -/
def fxSqrt (v : Int) : Int := isqrt (v.toNat * 2 ^ 600)

/-- erf; the sign of its value at −0 is open (log entry 139). -/
def vErf (n : Bool) (m : Nat) (e : Int) : FV :=
  if m = 0 then .fin (n && Config.zeroNegative true) 0 0
  else if atLeast m e 3 then fvBelowOne n
  else
    let x := fxOf false m e
    let s := fxErfSeries (fxMul x x) x 0 500
    fxVal n (fxDiv (2 * s) (fxSqrt fxPi)) (-600)

/-- The functions of R70 by their number in MOD of vtr (R285), with the special cases of R70. -/
inductive Fun70 where
  | exp | exp2 | log | log2 | recip | rsqrt | tanh | sigmoid | erf
  deriving DecidableEq, Repr

/-- Result and flags before rounding. -/
def fun70 (f : Fun70) : FV → FV × Nat
  | .nan s => (.nan false, (FV.nan s).nv)
  | .inf n =>
    match f with
    | .exp | .exp2 => (if n then .fin false 0 0 else .inf false, 0)
    | .log | .log2 => if n then (.nan false, AF.NV) else (.inf false, 0)
    | .recip => (.fin n 0 0, 0)
    | .rsqrt => if n then (.nan false, AF.NV) else (.fin false 0 0, 0)
    | .tanh | .erf => (.fin n 1 0, 0)
    | .sigmoid => (if n then .fin false 0 0 else fvOne, 0)
  | .fin n m e =>
    match f with
    | .exp => (vExp n m e, 0)
    | .exp2 => (vExp2 n m e, 0)
    | .log => if m = 0 then (.inf true, AF.DZ) else if n then (.nan false, AF.NV) else (vLog m e, 0)
    | .log2 => if m = 0 then (.inf true, AF.DZ) else if n then (.nan false, AF.NV) else (vLog2 m e, 0)
    | .recip =>
      if m = 0 then (.inf n, AF.DZ)
      else
        let q := quot 1 m
        (.fin n q.1 (q.2 - e), 0)
    | .rsqrt => if m = 0 then (.inf n, AF.DZ) else if n then (.nan false, AF.NV) else (vRsqrt m e, 0)
    | .tanh => (vTanh n m e, 0)
    | .sigmoid => (vSigmoid n m e, 0)
    | .erf => (vErf n m e, 0)

/-- A transcendental of FP32 bits, rounded once with RNE (R70). -/
def fTrans (f : Fun70) (a : Nat) : Nat × Nat :=
  let r := fun70 f (unpack fp32 a)
  finish fp32 r 0

end Sys2Proof.Machine
end

