-- ==== Sys2Proof/Machine/Couch.lean ====
section
/-!
DEFINITION. The Couch: epilogue entries (R280–R282), the steps E1–E4 of a row (R59–R64, R107–R109), and the drain
(R35, R283, R284).
-/
namespace Sys2Proof.Machine

/-! ### Functions (R107, R108) -/

/-- A value and the flags met so far. -/
abbrev Fl := FV × Nat

/-- One FP32 rounding of a computed value, back to a value. -/
def rnd32 (x : FV × Nat) (nv : Nat) : Fl :=
  let p := finish fp32 x nv
  (unpack fp32 p.1, p.2)

def cMul (x y : Fl) : Fl :=
  let r := rnd32 (fvMul x.1 y.1) (x.1.nv ||| y.1.nv)
  (r.1, r.2 ||| x.2 ||| y.2)

def cAdd (x y : Fl) : Fl :=
  let r := rnd32 (fvAdd x.1 y.1) (x.1.nv ||| y.1.nv)
  (r.1, r.2 ||| x.2 ||| y.2)

def cFma (x y z : Fl) : Fl :=
  let p := fvMul x.1 y.1
  let q := fvAdd p.1 z.1
  let r := rnd32 (q.1, q.2 ||| p.2) (x.1.nv ||| y.1.nv ||| z.1.nv)
  (r.1, r.2 ||| x.2 ||| y.2 ||| z.2)

def cFun (f : Fun70) (x : Fl) : Fl :=
  let r := rnd32 (fun70 f x.1) 0
  (r.1, r.2 ||| x.2)

def cNeg (x : Fl) : Fl := (x.1.neg, x.2)

def cConst (w : Nat) : Fl := (unpack fp32 w, 0)
def cOne : Fl := cConst 0x3F800000
def cHalf : Fl := cConst 0x3F000000
def cC1 : Fl := cConst 0x3F3504F3
def cC2 : Fl := cConst 0x3ECC422A

/-- x > 0. -/
def fvPos : FV → Bool
  | .inf n => !n
  | .fin n m _ => !n && m != 0
  | .nan _ => false

def cRelu (x : Fl) : Fl := if fvPos x.1 then x else (.fin false 0 0, x.2)

/-- A function code that is not reserved (R107). -/
def couchCodeOk (c : Nat) : Bool := c < 8 || (0x11 ≤ c && c < 0x18)

/-- A Couch function of a value with α (R107, R108); a NaN gives the canonical NaN. -/
def couchFn (code : Nat) (alpha : Word) (v : FV) : Fl :=
  let x : Fl := (v, 0)
  let a : Fl := (unpack fp32 alpha.toNat, 0)
  if code = 0 then x
  else if v.isNan then (.nan false, v.nv)
  else
    match code with
    | 0x01 => cRelu x
    | 0x02 => if fvPos v then x else cMul x a
    | 0x03 => cMul (cRelu x) (cRelu x)
    | 0x04 => cMul (cMul x (cAdd cOne (cFun .erf (cMul x cC1)))) cHalf
    | 0x05 => cMul x (cFun .sigmoid x)
    | 0x06 => cFun .sigmoid x
    | 0x07 => cFun .tanh x
    | 0x11 => if fvPos v then cOne else (.fin false 0 0, 0)
    | 0x12 => if fvPos v then cOne else a
    | 0x13 => cAdd (cRelu x) (cRelu x)
    | 0x14 =>
      let p := cMul (cAdd cOne (cFun .erf (cMul x cC1))) cHalf
      let h := cFun .exp (cMul (cMul x x) (cNeg cHalf))
      cFma x (cMul h cC2) p
    | 0x15 =>
      let s := cFun .sigmoid x
      cMul s (cFma x (cAdd cOne (cNeg s)) cOne)
    | 0x16 =>
      let s := cFun .sigmoid x
      cMul s (cAdd cOne (cNeg s))
    | _ =>
      let t := cFun .tanh x
      cFma (cNeg t) t cOne

/-! ### Epilogue entries (R281) -/

def CouchEntry.byte (e : CouchEntry) (k : Nat) : Nat := (e.desc.getD k 0).toNat
def CouchEntry.field (e : CouchEntry) (k hi lo : Nat) : Nat := fld (e.byte k) hi lo
def epE1 (e : CouchEntry) : Nat := e.field 0 1 0
def epSR (e : CouchEntry) : Bool := bitN (e.byte 0) 2
def epFit (e : CouchEntry) : Bool := bitN (e.byte 0) 3
def epOFmt (e : CouchEntry) : Nat := e.field 1 3 0
def epUFmt (e : CouchEntry) : Nat := e.field 1 7 4
def epF2 (e : CouchEntry) : Nat := e.field 2 4 0
def epF3 (e : CouchEntry) : Nat := e.field 3 4 0
def epE3 (e : CouchEntry) : Bool := bitN (e.byte 3) 7
def epDest (e : CouchEntry) : Nat := e.field 4 2 0
def epLane (e : CouchEntry) : Fin 4 := Fin.ofNat 4 (e.field 4 4 3)
def epTile (e : CouchEntry) : Nat := leAt e.desc 6 2 % 4096
def epWord (e : CouchEntry) (k : Nat) : Word := leWord (sub e.desc k 4)
def epBase (e : CouchEntry) : Nat := leAt e.desc 24 6
def epStride (e : CouchEntry) : Nat := leAt e.desc 32 6
def epColv (e : CouchEntry) : Nat := leAt e.desc 40 4

/-- Every byte of a part of the descriptor is 0. -/
def zeros (b : Bytes) : Bool := b.all (· == 0)

/-- Output formats that a destination allows (R282). -/
def destFmtOk (dest fmt : Nat) : Bool :=
  match dest with
  | 0 => fmt ≤ 10
  | 1 => is8bit fmt
  | 2 => fmt ≤ 10
  | _ => fmt == 10

/-- No reserved value stands in the descriptor, and R282 holds (R280, R281). -/
def entryOk (d : Bytes) : Bool :=
  let e : CouchEntry := ⟨d, []⟩
  e.field 0 7 4 == 0 && epE1 e != 3 && epOFmt e ≤ 10 && epUFmt e ≤ 10 && e.field 2 7 5 == 0 && e.field 3 6 5 == 0 &&
  couchCodeOk (epF2 e) && couchCodeOk (epF3 e) && e.field 4 7 5 == 0 && e.byte 5 == 0 && leAt d 6 2 / 4096 == 0 &&
  zeros (sub d 30 2) && zeros (sub d 38 2) && zeros (sub d 44 20) &&
  epColv e % 256 == 0 && epColv e / 2 ^ 18 == 0 && (epE1 e != 2 || epColv e + 256 ≤ tsSize) &&
  destFmtOk (epDest e) (epOFmt e) && ((epDest e != 2 && epDest e != 7) || epTile e < 2304)

/-- The zero entry that every drain finds until a couch.set of it (R280). -/
def CouchEntry.zero : CouchEntry := ⟨List.replicate 64 0, []⟩

/-! ### couch.set (R280) -/

def ldKey (issue part : Nat) : Nat := 8 * issue + part

/-- HAZARD of the Couch (R475). -/
def State.couchHaz (s : State) (t epi addr : Nat) : State :=
  s.hazard t (leBytes 0x09 1 ++ leBytes 1 1 ++ leBytes epi 2 ++ leBytes s.cycle 4 ++ leBytes addr 4)

def opCouchSet (u : Site) (epi : Fin 16) (ra : GReg) (s : State) : State :=
  if s.on u then
    let t := u.tile.val
    let a := s.rd u ra
    if tsOk a 64 64 then
      let s := s.access (.read t rkCouch 0 [(a.toNat, 32)] (.couchSet epi 0 s.cycle a.toNat))
      s.accessAt (s.cycle + 1) (.read t rkCouch 0 [(a.toNat + 32, 32)] (.couchSet epi 1 s.cycle a.toNat))
    else s.badOperand u slotD
  else s

/-- A part of a descriptor is read: the entry is complete after its second half, or after its column values, and
serves drains from 7 cycles after the couch.set on, 8 in a debug build. -/
def couchSetPart (t : Nat) (epi : Fin 16) (part issue addr : Nat) (data : Bytes) (s : State) : State :=
  let x := s.tile t
  match part with
  | 0 => s.setTile t { x with ld := tput x.ld (ldKey issue 0) data }
  | 1 =>
    let d := padTo (tget [] x.ld (ldKey issue 0)) 32 ++ padTo data 32
    if entryOk d then
      if epE1 ⟨d, []⟩ = 2 then
        let s := s.setTile t { x with ld := tput x.ld (ldKey issue 0) d }
        s.sch (issue + 2) (.access (.read t rkCouch 0 [(epColv ⟨d, []⟩, 256)] (.couchSet epi 2 issue addr)))
      else (s.setTile t { x with ld := tdel x.ld (ldKey issue 0) }).sch (issue + 7 + s.dbgN) (.couch t epi ⟨d, []⟩)
    else (s.setTile t { x with ld := tdel x.ld (ldKey issue 0) }).couchHaz t epi.val addr
  | _ =>
    let d := tget [] x.ld (ldKey issue 0)
    (s.setTile t { x with ld := tdel x.ld (ldKey issue 0) }).sch (issue + 7 + s.dbgN) (.couch t epi ⟨d, data⟩)

/-! ### A row -/

/-- Row stride of a format (R283). -/
def rowBytes (f : Nat) : Nat := if f = 6 then 16 else if is16bit f then 64 else if f = 10 then 128 else 32

/-- Element j of a row of u, with the row's block scale (R109). -/
def uElem (f : Nat) (u : Bytes) (scale : Byte) (j : Nat) : FV :=
  widen f ((unpackElems f (padTo u (rowBytes f))).getD j 0) scale.toNat

/-- E1 to E3 of element j (R59). -/
def rowElem (e : CouchEntry) (u : Bytes) (us : Byte) (j : Nat) (a : Word) : Word × Nat :=
  let y1 : Nat × Nat := match epE1 e with
    | 0 => (a.toNat, 0)
    | 1 => fFma fp32 false a.toNat (epWord e 8).toNat (epWord e 12).toNat
    | _ => fFma fp32 false a.toNat (leAt e.cols (4 * j) 4) (leAt e.cols (128 + 4 * j) 4)
  let alpha := epWord e 16
  let y2 : Nat × Nat :=
    if epF2 e = 0 then (y1.1, 0)
    else
      let r := couchFn (epF2 e) alpha (unpack fp32 y1.1)
      let p := finish fp32 r 0
      (p.1, p.2)
  let y3 : Nat × Nat :=
    if epE3 e then
      let g := couchFn (epF3 e) alpha (uElem (epUFmt e) u us j)
      let y := unpack fp32 y2.1
      let p := finish fp32 (fvMul y g.1) (y.nv ||| g.1.nv)
      (p.1, p.2 ||| g.2)
    else (y2.1, 0)
  (BitVec.ofNat 32 y3.1, y1.2 ||| y2.2 ||| y3.2)

/-- E1 to E3 of a row, with the flags. -/
def rowY (e : CouchEntry) (row : List Word) (u : Bytes) (us : Byte) : List Word × Nat :=
  let l := row.zipIdx.map fun p => rowElem e u us p.2 p.1
  (l.map (·.1), l.foldl (fun m p => m ||| p.2) 0)

/-- Seed of the program on the grid (R63). -/
def State.seed (s : State) : BitVec 64 :=
  match s.running with
  | some k => (s.slot k).seed
  | none => 0

/-- The rounding of element (i, j) of a drain (R59, R63). -/
def rowRnd (s : State) (e : CouchEntry) (i j : Nat) : Rnd :=
  if epSR e then .sr (srWord s.seed (BitVec.ofNat 32 s.spanNo) (epWord e 20) ((epBase e + i * epStride e + j) % 2 ^ 48))
  else .rne

/-- E4: the bytes of the row, its block scale for an MX format, and the flags (R60, R61). -/
def rowOut (e : CouchEntry) (rs : Nat → Rnd) (y : List Word) : Bytes × Option Byte × Nat :=
  let f := epOFmt e
  if f = 10 then (fromWords y, none, 0)
  else if isMx f then
    let r := cvtBlock f (epFit e) rs y
    (packElems f r.1, some r.2.1, r.2.2)
  else
    let l := y.zipIdx.map fun p => cvtPlain f (rs p.2) (unpack fp32 p.1.toNat)
    (packElems f (l.map (·.1)), none, l.foldl (fun m p => m ||| p.2) 0)

/-! ### The drain (R35, R283, R284) -/

/-- The addresses of a drain are aligned and in range (R283). -/
def drainOk (e : CouchEntry) (chain : Bool) (re rs ru rus : Word) : Bool :=
  let f := epOFmt e
  let d := epDest e
  let uf := epUFmt e
  (d != 3 || chain) &&
  (!(d == 0 || d == 2 || 6 ≤ d) || tsOk re (rowBytes f) (32 * rowBytes f)) &&
  (!((d == 0 || d == 2) && isMx f) || tsOk rs 1 32) &&
  (!epE3 e || (tsOk ru (rowBytes uf) (32 * rowBytes uf) && (!isMx uf || tsOk rus 1 32)))

/-- A drain that a later one follows by less than 32 cycles loses the rows not yet read; the row whose read falls in the issue
cycle of the later one has been read (R35; log entry 66). -/
def cutDrains (x : Tile) (c : Nat) : Tile :=
  { x with drains := x.drains.map fun d => if d.cut.isNone && c < d.issue + 32 then { d with cut := some c } else d }

/-- Whether an access reads u or its scale for a row that a drain of the tile has lost: it is not made (R35, R284). -/
def Tile.lostU (x : Tile) (a : Access) : Bool :=
  let lost (uid i : Nat) : Bool := x.drains.any fun d => d.uid == uid && d.cut.isSome && (tfind d.rows i).isNone
  match a with
  | .read _ _ _ _ (.drainU uid i) => lost uid i
  | .read _ _ _ _ (.drainUs uid i) => lost uid i
  | _ => false

/-- The reads of u that drains of a tile no longer make are dropped. -/
def dropLostU (t : Nat) (s : State) : State :=
  { s with sched := s.sched.filter fun e =>
      match e.2 with
      | .access a => !(a.tile == t && (s.tile t).lostU a)
      | _ => true }

/-- The effects of row i of a drain that issues in this cycle. -/
def rowEffects (t : Nat) (d : Drain) (s : State) (i : Nat) : State :=
  let c := s.cycle
  let s := s.sch (c + 2 + i) (.drainRow t d.uid i)
  let f := epUFmt d.entry
  let s := if epE3 d.entry then
      let s := s.sch (c + 6 + i) (.access (.read t rkCouch 0 [(d.ru + rowBytes f * i, rowBytes f)] (.drainU d.uid i)))
      if isMx f then s.sch (c + 6 + i) (.access (.read t rkCouch 1 [(d.rus + i, 1)] (.drainUs d.uid i))) else s
    else s
  s.sch (c + 12 + i) (.drainOut t d.uid i)

/-- A drain issues in this cycle with its operand registers' values; a chain names itself. -/
def startDrain (t : Nat) (arr set : Fin 2) (epi : Fin 16) (re rs ru rus : Word) (chain : Option Nat) (s : State) : State :=
  let x := s.tile t
  let e := tget CouchEntry.zero x.couch epi.val
  if drainOk e chain.isSome re rs ru rus then
    let y := x.arr arr
    let early := match (y.set set).ready with
      | some r => decide (s.cycle < r)
      | none => false
    let s := if early then s.arrHaz t 1 arr set else s
    let d : Drain := { uid := s.uid, issue := s.cycle, arr := arr, set := set, entry := e, re := re.toNat, rs := rs.toNat,
                       ru := ru.toNat, rus := rus.toNat, chain := chain, cut := none, rows := [], us := [], uss := [] }
    let y := y.setSet set { y.set set with drained := some s.cycle }
    let x := (cutDrains x s.cycle).setArr arr y
    let s := dropLostU t { s.setTile t { x with drains := x.drains ++ [d] } with uid := s.uid + 1 }
    (List.range 32).foldl (rowEffects t d) s
  else s.coreHaz t 9 slotD

def opCouchDrain (u : Site) (arr set : Fin 2) (epi : Fin 16) (re rs ru : GReg) (s : State) : State :=
  if s.on u then
    startDrain u.tile.val arr set epi (s.rd u re) (s.rd u rs) (s.rd u ru) (s.rd u (Fin.ofNat 32 (ru.val + 1))) none s
  else s

def Tile.drain (x : Tile) (uid : Nat) : Option Drain := x.drains.find? (·.uid == uid)
def Tile.modDrain (x : Tile) (uid : Nat) (f : Drain → Drain) : Tile :=
  { x with drains := x.drains.map fun d => if d.uid = uid then f d else d }

/-- Row i is read from the set, unless the Couch was taken over in an earlier cycle (R35, R284; log entry 66). -/
def drainRow (t uid i : Nat) (s : State) : State :=
  let x := s.tile t
  match x.drain uid with
  | none => s
  | some d =>
    if d.cut.all fun c => s.cycle < c then
      let row := (List.range 32).map fun j => cellNow x d.arr d.set i j s.cycle
      let s := s.eccSpan placeAcc (accWord t d.arr d.set i 0) 32 (Src.tile t) d.arr.val s.running
      s.setTile t (x.modDrain uid fun d => { d with rows := tput d.rows i row })
    else s

/-- The four gather words of a row (R97). -/
def gatherStart (t i : Nat) (y : List Word) (s : State) : State :=
  let b := fromWords y
  ([0, 1, 2, 3] : List (Fin 4)).foldl (fun s (l : Fin 4) =>
    let d := sub b (32 * l.val) 32
    { s with felt := { s.felt with inj := s.felt.inj ++
      [⟨t, l, s.cycle + 1, 0, 0, 3, i % 8 == 0, false, crc4 d, 0x7F, d, (0, 0)⟩] } }) s

def gatherRow (t : Nat) (y : List Word) (ending : Bool) (addr : Nat) (dest : Option Nat) (s : State) : State :=
  { s with felt := { s.felt with gathers := s.felt.gathers ++ [⟨t, s.cycle + 1, y, ending, addr, dest, []⟩] } }

/-- The first V stage of a chain. -/
def Chain.vStage (c : Chain) : Option Nat := (List.range c.stages.length).find? fun k => (c.stages.getD k (0, 0)).1 == slotV

/-- Row i to the chain that takes it: its V stage issues in this cycle (R254). -/
def handRow (t uid i : Nat) (y : List Word) (s : State) : State :=
  s.modTile t fun x => { x with chains := x.chains.map fun c =>
    if c.uid = uid then
      match c.vStage with
      | some k => { c with pend := c.pend ++ [⟨k, s.cycle, some y, i⟩] }
      | none => c
    else c }

/-- A row that has passed E1 to E4 goes to its destination (R282, R283). -/
def rowGo (t i : Nat) (d : Drain) (y : List Word) (b : Bytes) (sc : Option Byte) (s : State) : State :=
  let e := d.entry
  let a := d.re + rowBytes (epOFmt e) * i
  match epDest e with
  | 0 =>
    let s := s.access (.write t rkCouch 0 [(a, b)] prCouch 0)
    match sc with
    | some v => s.access (.write t rkCouch 1 [(d.rs + i, [v])] prCouch 0)
    | none => s
  | 1 => { s with felt := { s.felt with inj := s.felt.inj ++
      [⟨t, epLane e, s.cycle + 1, 0, 0, 2, false, false, crc4 b, sc.getD 0x7F, b, (0, 0)⟩] } }
  | 2 => sendRow t 0 (s.cycle + 3) (epTile e) a b (sc.map fun v => (d.rs + i, v)) s
  | 3 =>
    match d.chain with
    | some c => handRow t c i y s
    | none => s
  | 4 => gatherStart t i y s
  | 5 => gatherRow t y false 0 none s
  | 6 => gatherRow t y true a none s
  | _ => gatherRow t y true a (some (epTile e)) s

/-- The row of a chain that no drain delivers, in a cycle of a span at a tile: free values that every run of the program finds
the same (R19, R20; log entry 116). -/
def lostRowAt (t span c : Nat) : List Word := (List.range 32).map (Config.lostWord t span c)
def State.lostRow (s : State) (t : Nat) : List Word := lostRowAt t s.spanNo s.cycle

/-- Row i leaves the Couch; the drain is over with its last row. The chain stage that takes rows issues also for a row that a
takeover cut, which holds free values (log entry 116). -/
def drainOut (t uid i : Nat) (s : State) : State :=
  let x := s.tile t
  match x.drain uid with
  | none => s
  | some d =>
    let s := if i = 31 then s.setTile t { x with drains := x.drains.filter (·.uid != uid) } else s
    match tfind d.rows i with
    | none =>
      match d.chain, epDest d.entry with
      | some c, 3 => handRow t c i (s.lostRow t) s
      | _, _ => s
    | some row =>
      let r := rowY d.entry row (tget [] d.us i) (tget 0 d.uss i)
      let o := rowOut d.entry (rowRnd s d.entry i) r.1
      let s := s.flagAt t s.cycle (BitVec.ofNat 8 (r.2 ||| o.2.2))
      rowGo t i d r.1 o.1 o.2.1 s

def execCouchDrain (u : Site) (arr set : Fin 2) (epi : Fin 16) (re rs ru : GReg) (s : State) : Res :=
  .next (s.gate u slotD (opCouchDrain u arr set epi re rs ru))
def execCouchSet (u : Site) (epi : Fin 16) (ra : GReg) (s : State) : Res := .next (s.gate u slotD (opCouchSet u epi ra))

end Sys2Proof.Machine
end

