-- ==== Sys2Proof/Machine/Vector.lean ====
section
/-!
DEFINITION. The vector unit: its pipelines, its arithmetic on 32 lanes, conversions, loads and stores, and what it
sends out of the tile (R36, R58, R65–R70, R285–R289).
-/
namespace Sys2Proof.Machine

/-- Where a V operation issues: its tile, the values of the general registers, and in a chain the Couch row that stands
for operand VA, with its number (R288). -/
structure VAt where
  t : Nat
  regs : Tbl Word
  row : Option (List Word)
  i : Nat

/-- Issue from a slot. -/
def VAt.of (u : Site) (s : State) : VAt := ⟨u.tile.val, (s.tile u.tile.val).g, none, 0⟩

/-- The value of a general register it names. -/
def VAt.g (c : VAt) (r : GReg) : Word := tget 0 c.regs r.val

/-- n lanes of vector register v from a lane on are read (R408). -/
def vecRead (t : Nat) (v : VReg) (lane n : Nat) (s : State) : State :=
  s.eccSpan placeVec (t * 1024 + v.val * 32 + lane) n (Src.tile t) 0 s.running

/-- Operand VA is read: a register, unless the Couch row stands for it. -/
def VAt.readVa (c : VAt) (v : VReg) (lane n : Nat) (s : State) : State :=
  if c.row.isSome then s else vecRead c.t v lane n s

/-- Operand VA. -/
def VAt.va (c : VAt) (s : State) (v : VReg) : List Word :=
  match c.row with
  | some l => l
  | none => (s.tile c.t).vr v

/-- HAZARD of the vector unit (R475). -/
def State.vecHaz (s : State) (t cause vd op : Nat) : State :=
  s.hazard t (leBytes 0x08 1 ++ leBytes cause 1 ++ leBytes vd 1 ++ leBytes op 1 ++ leBytes s.cycle 4)

/-- A vector register takes lanes in a cycle; two results in one cycle are reported (R287). -/
def vecWrite (t : Nat) (vd : VReg) (op due : Nat) (lanes : List Word) (s : State) : State :=
  let clash := s.sched.any fun e => e.1 == due && (match e.2 with
    | .vset t' vd' _ => t' == t && vd' == vd
    | _ => false)
  let s := if clash then s.vecHaz t 2 vd.val op else s
  s.sch due (.vset t vd lanes)

/-- The unit is in use in this cycle (R44). -/
def vecUse (t : Nat) (s : State) : State := s.modTile t fun x => { x with vLast := some s.cycle, vGated := false }

/-- Lanes computed with their flags, visible n cycles after issue. -/
def vecOut (t : Nat) (vd : VReg) (op n : Nat) (l : List (Nat × Nat)) (s : State) : State :=
  let s := (vecUse t s).flagAt t (s.cycle + n) (BitVec.ofNat 8 (l.foldl (fun m p => m ||| p.2) 0))
  vecWrite t vd op (s.cycle + n) (l.map fun p => BitVec.ofNat 32 p.1) s

/-- The operations of one operand, and those that read VD as well (R285). -/
def vecOneOperand (op : Nat) : Bool := [0x0A, 0x0B, 0x11, 0x12].contains op
def vecReadsVd (op : Nat) : Bool := [0x04, 0x05, 0x0D].contains op

/-- The registers that a lane operation reads. -/
def vecOperands (c : VAt) (op : Nat) (vd va vb : VReg) (s : State) : State :=
  let s := c.readVa va 0 32 s
  let s := if vecOneOperand op then s else vecRead c.t vb 0 32 s
  if vecReadsVd op then vecRead c.t vd 0 32 s else s

/-- A lane function of VA, VB and VD. -/
def vecLanes (c : VAt) (op n : Nat) (f : Nat → Nat → Nat → Nat × Nat) (vd va vb : VReg) (s : State) : State :=
  let s := vecOperands c op vd va vb s
  let x := s.tile c.t
  let l := (((c.va s va).zip (x.vr vb)).zip (x.vr vd)).map fun p => f p.1.1.toNat p.1.2.toNat p.2.toNat
  vecOut c.t vd op n l s

/-- An FP32 lane function, or the same on the two packed BF16 values of a lane (R66). -/
def packed (pk : Bool) (f : FpFmt → Nat → Nat → Nat → Nat × Nat) (a b d : Nat) : Nat × Nat :=
  if pk then
    let lo := f bf16 (a % 65536) (b % 65536) (d % 65536)
    let hi := f bf16 (a / 65536) (b / 65536) (d / 65536)
    (lo.1 + 65536 * hi.1, lo.2 ||| hi.2)
  else f fp32 a b d

/-- The long pipeline takes one operation in 4 cycles; an operation within the interval has no effect (R287). -/
def vecLong (c : VAt) (op : Nat) (vd : VReg) (f : State → State) (s : State) : State :=
  match (s.tile c.t).longLast with
  | some k =>
    if s.cycle < k + 4 then s.vecHaz c.t 1 vd.val op
    else f (s.modTile c.t fun x => { x with longLast := some s.cycle })
  | none => f (s.modTile c.t fun x => { x with longLast := some s.cycle })

/-! ### Arithmetic -/

def vAdd (c : VAt) (vd va vb : VReg) (pk : Bool) : State → State := vecLanes c 0x01 4 (packed pk fun f a b _ => fAdd f a b) vd va vb
def vSub (c : VAt) (vd va vb : VReg) (pk : Bool) : State → State := vecLanes c 0x02 4 (packed pk fun f a b _ => fSub f a b) vd va vb
def vMul (c : VAt) (vd va vb : VReg) (pk : Bool) : State → State := vecLanes c 0x03 4 (packed pk fun f a b _ => fMul f a b) vd va vb
def vFma (c : VAt) (vd va vb : VReg) (pk : Bool) : State → State := vecLanes c 0x04 4 (packed pk fun f a b d => fFma f false a b d) vd va vb
def vFnma (c : VAt) (vd va vb : VReg) (pk : Bool) : State → State := vecLanes c 0x05 4 (packed pk fun f a b d => fFma f true a b d) vd va vb
def vMin (c : VAt) (vd va vb : VReg) (pk : Bool) : State → State := vecLanes c 0x06 4 (packed pk fun f a b _ => fMinMax f false false a b) vd va vb
def vMax (c : VAt) (vd va vb : VReg) (pk : Bool) : State → State := vecLanes c 0x07 4 (packed pk fun f a b _ => fMinMax f true false a b) vd va vb
def vMinn (c : VAt) (vd va vb : VReg) (pk : Bool) : State → State := vecLanes c 0x08 4 (packed pk fun f a b _ => fMinMax f false true a b) vd va vb
def vMaxn (c : VAt) (vd va vb : VReg) (pk : Bool) : State → State := vecLanes c 0x09 4 (packed pk fun f a b _ => fMinMax f true true a b) vd va vb

/-- Bit 31 cleared, every other bit kept (R67). -/
def vAbs (c : VAt) (vd va : VReg) : State → State := vecLanes c 0x0A 4 (fun a _ _ => (a % 2 ^ 31, 0)) vd va va
/-- Bit 31 inverted (R67). -/
def vNeg (c : VAt) (vd va : VReg) : State → State := vecLanes c 0x0B 4 (fun a _ _ => ((a + 2 ^ 31) % 2 ^ 32, 0)) vd va va

/-- The comparison of a lane (R285): a NaN compares false but under ne and unordered. -/
def cmpLane (m : VCmp) (a b : Nat) : Nat × Nat :=
  let x := unpack fp32 a
  let y := unpack fp32 b
  let un := x.isNan || y.isNan
  let r := match m with
    | .eq => fvEq x y
    | .ne => !fvEq x y
    | .lt => !un && fvLt false x y
    | .le => !un && !fvLt false y x
    | .unordered => un
  (if r then 0xFFFFFFFF else 0, x.nv ||| y.nv)

def vCmp (c : VAt) (vd va vb : VReg) (m : VCmp) : State → State := vecLanes c 0x0C 4 (fun a b _ => cmpLane m a b) vd va vb
def vSel (c : VAt) (vd va vb : VReg) : State → State := vecLanes c 0x0D 4 (fun a b d => (if b ≠ 0 then a else d, 0)) vd va vb

def vDiv (c : VAt) (vd va vb : VReg) : State → State :=
  vecLong c 0x10 vd (vecLanes c 0x10 12 (fun a b _ => fDiv fp32 a b) vd va vb)
def vSqrt (c : VAt) (vd va : VReg) : State → State :=
  vecLong c 0x11 vd (vecLanes c 0x11 12 (fun a _ _ => fSqrt fp32 a) vd va va)

def TrFn.fun70 : TrFn → Fun70
  | .exp => .exp
  | .exp2 => .exp2
  | .log => .log
  | .log2 => .log2
  | .recip => .recip
  | .rsqrt => .rsqrt
  | .tanh => .tanh
  | .sigmoid => .sigmoid
  | .erf => .erf

def vTr (c : VAt) (vd va : VReg) (m : TrFn) : State → State :=
  vecLong c 0x12 vd (vecLanes c 0x12 12 (fun a _ _ => fTrans (TrFn.fun70 m) a) vd va va)

/-- One level of the tree of R58: neighbours combined. -/
def redPairs (f : Nat → Nat → Nat × Nat) : List Nat → List Nat × Nat
  | a :: b :: r =>
    let x := f a b
    let y := redPairs f r
    (x.1 :: y.1, x.2 ||| y.2)
  | l => (l, 0)

/-- The five levels over 32 lanes (R58). -/
def redTree (f : Nat → Nat → Nat × Nat) (l : List Nat) : Nat → Nat × Nat
  | 0 => (l.headD 0, 0)
  | n + 1 =>
    let x := redPairs f l
    let y := redTree f x.1 n
    (y.1, x.2 ||| y.2)

def redFn : RedFn → Nat → Nat → Nat × Nat
  | .sum, a, b => fAdd fp32 a b
  | .max, a, b => fMinMax fp32 true false a b
  | .min, a, b => fMinMax fp32 false false a b
  | .maxNum, a, b => fMinMax fp32 true true a b
  | .minNum, a, b => fMinMax fp32 false true a b
  | .maxAbs, a, b => fMinMax fp32 true false a b

/-- The reduction of 32 lanes; the absolute-value form clears bit 31 of each lane first (R58, R285). -/
def redLanes (m : RedFn) (l : List Word) : Nat × Nat :=
  redTree (redFn m) (l.map fun w => if m = .maxAbs then w.toNat % 2 ^ 31 else w.toNat) 5

def vRed (c : VAt) (vd va : VReg) (m : RedFn) (s : State) : State :=
  let go := fun (s : State) =>
    let s := c.readVa va 0 32 s
    let r := redLanes m (c.va s va)
    vecOut c.t vd 0x14 10 (r :: List.replicate 31 (0, 0)) (s.modTile c.t fun x => { x with redLast := some s.cycle })
  match (s.tile c.t).redLast with
  | some k => if s.cycle < k + 2 then s.vecHaz c.t 1 vd.val 0x14 else go s
  | none => go s

/-! ### Conversions (R69, R286) -/

def CvtFmt.code : CvtFmt → Nat
  | .e4m3 => 0
  | .e5m2 => 1
  | .mxE4m3 => 2
  | .mxE5m2 => 3
  | .mxE3m2 => 4
  | .mxE2m3 => 5
  | .mxE2m1 => 6
  | .mxInt8 => 7
  | .bf16 => 8
  | .fp16 => 9

/-- The rounding of lane l (R63, R69). -/
def laneRnd (s : State) (t : Nat) (m : RMode) (l : Nat) : Rnd :=
  match m with
  | .rne => .rne
  | .zero => .zero
  | .up => .up
  | .down => .down
  | .stochastic =>
    let x := s.tile t
    .sr (srWord s.seed (BitVec.ofNat 32 s.spanNo) x.srTensor ((x.srBase.toNat + l) % 2 ^ 48))

/-- vcvt: narrows and packs, or widens exactly (R286). -/
def vCvt (c : VAt) (vd va : VReg) (f : CvtFmt) (wid : Bool) (m : RMode) (s : State) : State :=
  let code := CvtFmt.code f
  let s := c.readVa va 0 (if wid then elemBits code else 32) s
  let a := c.va s va
  if wid then
    let l := ((unpackElems code (fromWords a)).take 32).map fun v =>
      let x := elemVal code v
      let p := pack fp32 .rne x
      (p.1, p.2 ||| x.nv)
    vecOut c.t vd 0x18 4 l s
  else
    let l := a.zipIdx.map fun p => cvtVector code (laneRnd s c.t m p.2) (unpack fp32 p.1.toNat)
    let fl := l.foldl (fun k p => k ||| p.2) 0
    let w := toWords (padTo (packElems code (l.map (·.1))) 128)
    vecOut c.t vd 0x18 4 (w.map fun x => (x.toNat, fl)) s

def vCvti (c : VAt) (vd va : VReg) (wid : Bool) (m : RMode) (s : State) : State :=
  let s := c.readVa va 0 32 s
  let l := (c.va s va).zipIdx.map fun p =>
    if wid then fromInt32 (laneRnd s c.t m p.2) p.1 else toInt32 (laneRnd s c.t m p.2) p.1.toNat
  vecOut c.t vd 0x19 4 l s

/-! ### Integer lanes -/

def vInt (c : VAt) (op : Nat) (f : Word → Word → Word) (vd va vb : VReg) : State → State :=
  vecLanes c op 4 (fun a b _ => ((f (BitVec.ofNat 32 a) (BitVec.ofNat 32 b)).toNat, 0)) vd va vb

def vIadd (c : VAt) : VReg → VReg → VReg → State → State := vInt c 0x1C (· + ·)
def vIsub (c : VAt) : VReg → VReg → VReg → State → State := vInt c 0x1D (· - ·)
def vIand (c : VAt) : VReg → VReg → VReg → State → State := vInt c 0x1E (· &&& ·)
def vIor (c : VAt) : VReg → VReg → VReg → State → State := vInt c 0x1F (· ||| ·)
def vIxor (c : VAt) : VReg → VReg → VReg → State → State := vInt c 0x20 (· ^^^ ·)
def vIsll (c : VAt) : VReg → VReg → VReg → State → State := vInt c 0x21 fun a b => a <<< (wfld b 4 0)
def vIsrl (c : VAt) : VReg → VReg → VReg → State → State := vInt c 0x22 fun a b => a >>> (wfld b 4 0)

/-! ### Loads, stores and moves -/

def VSize.bytes : VSize → Nat
  | .b128 => 128
  | .b64 => 64
  | .b32 => 32

def vLd (c : VAt) (vd : VReg) (ra : GReg) (sz : VSize) (s : State) : State :=
  let n := VSize.bytes sz
  let a := c.g ra
  if tsOk a n n then
    (vecUse c.t s).access (.read c.t rkVector 0 [(a.toNat, n)] (.vreg vd (s.cycle + 6 + s.dbgN)))
  else s.coreHaz c.t 9 slotV

/-- vst; as a chain stage row i goes to g[RA] + SZ × i (R288). -/
def vSt (c : VAt) (va : VReg) (ra : GReg) (sz : VSize) (s : State) : State :=
  let n := VSize.bytes sz
  let a := c.g ra + BitVec.ofNat 32 (n * c.i)
  if tsOk a n n then
    let s := c.readVa va 0 (n / 4) s
    (vecUse c.t s).access (.write c.t rkVector 0 [(a.toNat, (fromWords (c.va s va)).take n)] prVector 0)
  else s.coreHaz c.t 9 slotV

def vBc (c : VAt) (vd : VReg) (ra : GReg) (s : State) : State :=
  vecOut c.t vd 0x2A 4 (List.replicate 32 ((c.g ra).toNat, 0)) s
def vIdx (c : VAt) (vd : VReg) (s : State) : State := vecOut c.t vd 0x2B 4 ((List.range 32).map fun l => (l, 0)) s

def vMvg (c : VAt) (rd : GReg) (va : VReg) (lane : Fin 32) (s : State) : State :=
  let s := c.readVa va lane.val 1 s
  (vecUse c.t s).regW c.t slotV (s.cycle + 4) (.gset c.t rd ((c.va s va).getD lane.val 0))

/-- v.sr: applies to conversions from t + 1 on (R285). -/
def vSrSet (c : VAt) (rt rb rc : GReg) (s : State) : State :=
  let base : BitVec 48 := BitVec.ofNat 48 ((wfld (c.g rc) 15 0) * 2 ^ 32 + (c.g rb).toNat)
  (vecUse c.t s).sch (s.cycle + 1) (.vsr c.t (c.g rt) base)

/-- v.felt: a loose word at the tile 2 cycles later (R289). -/
def vFelt (c : VAt) (lane : Fin 4) (va : VReg) (rs : GReg) (scf : Bool) (s : State) : State :=
  let s := vecUse c.t (c.readVa va 0 8 s)
  let d := (fromWords (c.va s va)).take 32
  let sc : Byte := if scf then (c.g rs).setWidth 8 else 0x7F
  { s with felt := { s.felt with inj := s.felt.inj ++ [⟨c.t, lane, s.cycle + 2, 1, 0, 2, false, false, crc4 d, sc, d, (0, 0)⟩] } }

/-- v.lp: 128 bytes to another tile; as a chain stage row i goes to g[RB] + 128 × i (R288, R289). -/
def vLp (c : VAt) (va : VReg) (ra rb : GReg) (s : State) : State :=
  let dest := wfld (c.g ra) 11 0
  let a := c.g rb + BitVec.ofNat 32 (128 * c.i)
  if dest < 2304 && tsOk a 128 128 then
    let s := c.readVa va 0 32 s
    sendRow c.t 1 (s.cycle + 4) dest a.toNat (fromWords (c.va s va)) none (vecUse c.t s)
  else s.coreHaz c.t 9 slotV

/-! ### The V slot -/

/-- A V operation of a slot: its predicate, then the operation. -/
def vOp (u : Site) (f : VAt → State → State) (s : State) : State := if s.on u then f (VAt.of u s) s else s

def opVadd (u : Site) (vd va vb : VReg) (pk : Bool) : State → State := vOp u fun c => vAdd c vd va vb pk
def opVsub (u : Site) (vd va vb : VReg) (pk : Bool) : State → State := vOp u fun c => vSub c vd va vb pk
def opVmul (u : Site) (vd va vb : VReg) (pk : Bool) : State → State := vOp u fun c => vMul c vd va vb pk
def opVfma (u : Site) (vd va vb : VReg) (pk : Bool) : State → State := vOp u fun c => vFma c vd va vb pk
def opVfnma (u : Site) (vd va vb : VReg) (pk : Bool) : State → State := vOp u fun c => vFnma c vd va vb pk
def opVmin (u : Site) (vd va vb : VReg) (pk : Bool) : State → State := vOp u fun c => vMin c vd va vb pk
def opVmax (u : Site) (vd va vb : VReg) (pk : Bool) : State → State := vOp u fun c => vMax c vd va vb pk
def opVminn (u : Site) (vd va vb : VReg) (pk : Bool) : State → State := vOp u fun c => vMinn c vd va vb pk
def opVmaxn (u : Site) (vd va vb : VReg) (pk : Bool) : State → State := vOp u fun c => vMaxn c vd va vb pk
def opVabs (u : Site) (vd va : VReg) : State → State := vOp u fun c => vAbs c vd va
def opVneg (u : Site) (vd va : VReg) : State → State := vOp u fun c => vNeg c vd va
def opVcmp (u : Site) (vd va vb : VReg) (m : VCmp) : State → State := vOp u fun c => vCmp c vd va vb m
def opVsel (u : Site) (vd va vb : VReg) : State → State := vOp u fun c => vSel c vd va vb
def opVdiv (u : Site) (vd va vb : VReg) : State → State := vOp u fun c => vDiv c vd va vb
def opVsqrt (u : Site) (vd va : VReg) : State → State := vOp u fun c => vSqrt c vd va
def opVtr (u : Site) (vd va : VReg) (m : TrFn) : State → State := vOp u fun c => vTr c vd va m
def opVred (u : Site) (vd va : VReg) (m : RedFn) : State → State := vOp u fun c => vRed c vd va m
def opVcvt (u : Site) (vd va : VReg) (f : CvtFmt) (wid : Bool) (m : RMode) : State → State := vOp u fun c => vCvt c vd va f wid m
def opVcvti (u : Site) (vd va : VReg) (wid : Bool) (m : RMode) : State → State := vOp u fun c => vCvti c vd va wid m
def opViadd (u : Site) (vd va vb : VReg) : State → State := vOp u fun c => vIadd c vd va vb
def opVisub (u : Site) (vd va vb : VReg) : State → State := vOp u fun c => vIsub c vd va vb
def opViand (u : Site) (vd va vb : VReg) : State → State := vOp u fun c => vIand c vd va vb
def opVior (u : Site) (vd va vb : VReg) : State → State := vOp u fun c => vIor c vd va vb
def opVixor (u : Site) (vd va vb : VReg) : State → State := vOp u fun c => vIxor c vd va vb
def opVisll (u : Site) (vd va vb : VReg) : State → State := vOp u fun c => vIsll c vd va vb
def opVisrl (u : Site) (vd va vb : VReg) : State → State := vOp u fun c => vIsrl c vd va vb
def opVld (u : Site) (vd : VReg) (ra : GReg) (sz : VSize) : State → State := vOp u fun c => vLd c vd ra sz
def opVst (u : Site) (va : VReg) (ra : GReg) (sz : VSize) : State → State := vOp u fun c => vSt c va ra sz
def opVbc (u : Site) (vd : VReg) (ra : GReg) : State → State := vOp u fun c => vBc c vd ra
def opVidx (u : Site) (vd : VReg) : State → State := vOp u fun c => vIdx c vd
def opVmvg (u : Site) (rd : GReg) (va : VReg) (lane : Fin 32) : State → State := vOp u fun c => vMvg c rd va lane
def opVSr (u : Site) (rt rb rc : GReg) : State → State := vOp u fun c => vSrSet c rt rb rc
def opVFelt (u : Site) (lane : Fin 4) (va : VReg) (rs : GReg) (scf : Bool) : State → State := vOp u fun c => vFelt c lane va rs scf
def opVLp (u : Site) (va : VReg) (ra rb : GReg) : State → State := vOp u fun c => vLp c va ra rb

/-- An encoding of vcvt that R286 reserves: WID 1 with a rounding. -/
def vcvtReserved (wid : Bool) (m : RMode) : Bool := wid && m != .rne

/-! ### Meanings -/

def execVadd (u : Site) (vd va vb : VReg) (pk : Bool) (s : State) : Res := .next (s.gate u slotV (opVadd u vd va vb pk))
def execVsub (u : Site) (vd va vb : VReg) (pk : Bool) (s : State) : Res := .next (s.gate u slotV (opVsub u vd va vb pk))
def execVmul (u : Site) (vd va vb : VReg) (pk : Bool) (s : State) : Res := .next (s.gate u slotV (opVmul u vd va vb pk))
def execVfma (u : Site) (vd va vb : VReg) (pk : Bool) (s : State) : Res := .next (s.gate u slotV (opVfma u vd va vb pk))
def execVfnma (u : Site) (vd va vb : VReg) (pk : Bool) (s : State) : Res := .next (s.gate u slotV (opVfnma u vd va vb pk))
def execVmin (u : Site) (vd va vb : VReg) (pk : Bool) (s : State) : Res := .next (s.gate u slotV (opVmin u vd va vb pk))
def execVmax (u : Site) (vd va vb : VReg) (pk : Bool) (s : State) : Res := .next (s.gate u slotV (opVmax u vd va vb pk))
def execVminn (u : Site) (vd va vb : VReg) (pk : Bool) (s : State) : Res := .next (s.gate u slotV (opVminn u vd va vb pk))
def execVmaxn (u : Site) (vd va vb : VReg) (pk : Bool) (s : State) : Res := .next (s.gate u slotV (opVmaxn u vd va vb pk))
def execVabs (u : Site) (vd va : VReg) (s : State) : Res := .next (s.gate u slotV (opVabs u vd va))
def execVneg (u : Site) (vd va : VReg) (s : State) : Res := .next (s.gate u slotV (opVneg u vd va))
def execVcmp (u : Site) (vd va vb : VReg) (m : VCmp) (s : State) : Res := .next (s.gate u slotV (opVcmp u vd va vb m))
def execVsel (u : Site) (vd va vb : VReg) (s : State) : Res := .next (s.gate u slotV (opVsel u vd va vb))
def execVdiv (u : Site) (vd va vb : VReg) (s : State) : Res := .next (s.gate u slotV (opVdiv u vd va vb))
def execVsqrt (u : Site) (vd va : VReg) (s : State) : Res := .next (s.gate u slotV (opVsqrt u vd va))
def execVtr (u : Site) (vd va : VReg) (m : TrFn) (s : State) : Res := .next (s.gate u slotV (opVtr u vd va m))
def execVred (u : Site) (vd va : VReg) (m : RedFn) (s : State) : Res := .next (s.gate u slotV (opVred u vd va m))
def execVcvt (u : Site) (vd va : VReg) (f : CvtFmt) (wid : Bool) (m : RMode) (s : State) : Res :=
  if vcvtReserved wid m then .refused .reservedEncoding else .next (s.gate u slotV (opVcvt u vd va f wid m))
def execVcvti (u : Site) (vd va : VReg) (wid : Bool) (m : RMode) (s : State) : Res := .next (s.gate u slotV (opVcvti u vd va wid m))
def execViadd (u : Site) (vd va vb : VReg) (s : State) : Res := .next (s.gate u slotV (opViadd u vd va vb))
def execVisub (u : Site) (vd va vb : VReg) (s : State) : Res := .next (s.gate u slotV (opVisub u vd va vb))
def execViand (u : Site) (vd va vb : VReg) (s : State) : Res := .next (s.gate u slotV (opViand u vd va vb))
def execVior (u : Site) (vd va vb : VReg) (s : State) : Res := .next (s.gate u slotV (opVior u vd va vb))
def execVixor (u : Site) (vd va vb : VReg) (s : State) : Res := .next (s.gate u slotV (opVixor u vd va vb))
def execVisll (u : Site) (vd va vb : VReg) (s : State) : Res := .next (s.gate u slotV (opVisll u vd va vb))
def execVisrl (u : Site) (vd va vb : VReg) (s : State) : Res := .next (s.gate u slotV (opVisrl u vd va vb))
def execVld (u : Site) (vd : VReg) (ra : GReg) (sz : VSize) (s : State) : Res := .next (s.gate u slotV (opVld u vd ra sz))
def execVst (u : Site) (va : VReg) (ra : GReg) (sz : VSize) (s : State) : Res := .next (s.gate u slotV (opVst u va ra sz))
def execVbc (u : Site) (vd : VReg) (ra : GReg) (s : State) : Res := .next (s.gate u slotV (opVbc u vd ra))
def execVidx (u : Site) (vd : VReg) (s : State) : Res := .next (s.gate u slotV (opVidx u vd))
def execVmvg (u : Site) (rd : GReg) (va : VReg) (lane : Fin 32) (s : State) : Res := .next (s.gate u slotV (opVmvg u rd va lane))
def execVSr (u : Site) (rt rb rc : GReg) (s : State) : Res := .next (s.gate u slotV (opVSr u rt rb rc))
def execVFelt (u : Site) (lane : Fin 4) (va : VReg) (rs : GReg) (scf : Bool) (s : State) : Res := .next (s.gate u slotV (opVFelt u lane va rs scf))
def execVLp (u : Site) (va : VReg) (ra rb : GReg) (s : State) : Res := .next (s.gate u slotV (opVLp u va ra rb))

end Sys2Proof.Machine
end

