-- ==== Sys2Proof/Machine/Chain.lean ====
section
/-!
DEFINITION. Chain commands (R253–R256, R288): starting a chain, and issuing the stages that are due.
-/
namespace Sys2Proof.Machine

/-- A V operation at an issue of the vector unit: from a slot, or as a chain stage (R285, R288). -/
def vecRun (c : VAt) (i : Instr) : State → State :=
  match i with
  | .vadd _ vd va vb pk => vAdd c vd va vb pk
  | .vsub _ vd va vb pk => vSub c vd va vb pk
  | .vmul _ vd va vb pk => vMul c vd va vb pk
  | .vfma _ vd va vb pk => vFma c vd va vb pk
  | .vfnma _ vd va vb pk => vFnma c vd va vb pk
  | .vmin _ vd va vb pk => vMin c vd va vb pk
  | .vmax _ vd va vb pk => vMax c vd va vb pk
  | .vminn _ vd va vb pk => vMinn c vd va vb pk
  | .vmaxn _ vd va vb pk => vMaxn c vd va vb pk
  | .vabs _ vd va => vAbs c vd va
  | .vneg _ vd va => vNeg c vd va
  | .vcmp _ vd va vb m => vCmp c vd va vb m
  | .vsel _ vd va vb => vSel c vd va vb
  | .vdiv _ vd va vb => vDiv c vd va vb
  | .vsqrt _ vd va => vSqrt c vd va
  | .vtr _ vd va m => vTr c vd va m
  | .vred _ vd va m => vRed c vd va m
  | .vcvt _ vd va f wid m => vCvt c vd va f wid m
  | .vcvti _ vd va wid m => vCvti c vd va wid m
  | .viadd _ vd va vb => vIadd c vd va vb
  | .visub _ vd va vb => vIsub c vd va vb
  | .viand _ vd va vb => vIand c vd va vb
  | .vior _ vd va vb => vIor c vd va vb
  | .vixor _ vd va vb => vIxor c vd va vb
  | .visll _ vd va vb => vIsll c vd va vb
  | .visrl _ vd va vb => vIsrl c vd va vb
  | .vld _ vd ra sz => vLd c vd ra sz
  | .vst _ va ra sz => vSt c va ra sz
  | .vbc _ vd ra => vBc c vd ra
  | .vidx _ vd => vIdx c vd
  | .vmvg _ rd va lane => vMvg c rd va lane
  | .vSr _ rt rb rc => vSrSet c rt rb rc
  | .vFelt _ lane va rs scf => vFelt c lane va rs scf
  | .vLp _ va ra rb => vLp c va ra rb
  | _ => id

/-- A chain of a tile changed by a function. -/
def Tile.modChain (x : Tile) (uid : Nat) (f : Chain → Chain) : Tile :=
  { x with chains := x.chains.map fun c => if c.uid = uid then f c else c }

/-- The register a V operation writes. -/
def vecDest (i : Instr) : Option VReg :=
  match i with
  | .vadd _ vd _ _ _ | .vsub _ vd _ _ _ | .vmul _ vd _ _ _ | .vfma _ vd _ _ _ | .vfnma _ vd _ _ _ => some vd
  | .vmin _ vd _ _ _ | .vmax _ vd _ _ _ | .vminn _ vd _ _ _ | .vmaxn _ vd _ _ _ => some vd
  | .vabs _ vd _ | .vneg _ vd _ | .vsqrt _ vd _ | .vtr _ vd _ _ | .vred _ vd _ _ => some vd
  | .vcmp _ vd _ _ _ | .vsel _ vd _ _ | .vdiv _ vd _ _ | .vcvt _ vd _ _ _ _ | .vcvti _ vd _ _ _ => some vd
  | .viadd _ vd _ _ | .visub _ vd _ _ | .viand _ vd _ _ | .vior _ vd _ _ | .vixor _ vd _ _ => some vd
  | .visll _ vd _ _ | .visrl _ vd _ _ | .vld _ vd _ _ | .vbc _ vd _ | .vidx _ vd => some vd
  | _ => none

/-- Row i of a V stage: the Couch row it takes, or, of a stage that follows a V operation, what that has made of it by now
(R288; log entry 149). -/
def stageRow (t : TileId) (c : Chain) (p : ChainIssue) (s : State) : Option (List Word) :=
  match p.row, p.stage with
  | some r, _ => some r
  | none, 0 => none
  | none, k + 1 =>
    match decodeSlot t (c.stages.getD k (0, 0)).1 (c.stages.getD k (0, 0)).2 with
    | .op i => (vecDest i).map (s.tile t.val).vr
    | _ => none

/-- A following stage is due in a cycle. -/
def Chain.due (c : Chain) (stage cyc : Nat) (row : Option (List Word)) (i : Nat) : Chain :=
  if stage < c.stages.length then { c with pend := c.pend ++ [⟨stage, cyc, row, i⟩], till := max c.till (cyc + 1) } else c

/-- One stage of a chain issues (R254). The stages after one that has no effect issue in their cycles all the same; rows
that no drain delivers to them hold free values (log entry 116). -/
def stageRun (t : TileId) (c : Chain) (p : ChainIssue) (s : State) : State :=
  let w := c.stages.getD p.stage (0, 0)
  let g (r : GReg) : Word := tget 0 c.regs r.val
  let s := s.modTile t.val fun x => { x with chainUse := tset 0 x.chainUse w.1 (s.cycle + 1) }
  match decodeSlot t w.1 w.2 with
  | .op (.mmStream _ arr rl rls rr rrs set cont) =>
    let st : Stream := { issue := s.cycle, cfg := ((s.tile t.val).arr arr).cfg, dbg := s.dbgN }
    let s := startStream t.val w.1 arr (g rl) (g rls) (g rr) (g rrs) set cont s
    s.modTile t.val fun x => x.modChain c.uid fun c => c.due (p.stage + 1) st.ready none 0
  | .op (.couchDrain _ arr set epi re rs ru) =>
    let id := s.uid
    let s := startDrain t.val arr set epi (g re) (g rs) (g ru) (g (Fin.ofNat 32 (ru.val + 1))) (some c.uid) s
    if (s.tile t.val).drains.any fun d => d.uid == id then
      s.modTile t.val fun x => x.modChain c.uid fun c => { c with till := max c.till (s.cycle + 44) }
    else
      (List.range 32).foldl (fun s i =>
        s.modTile t.val fun x => x.modChain c.uid fun c => c.due (p.stage + 1) (s.cycle + 12 + i) (some (lostRowAt t.val s.spanNo (s.cycle + 12 + i))) i) s
  -- these form no pair of R254, so they are stage 0 of a chain of one stage
  | .op (.mmCfg u arr ra) => opMmCfg u arr ra s
  | .op (.mmPwr u arr off) => opMmPwr u arr off s
  | .op (.couchSet u epi ra) => opCouchSet u epi ra s
  | .op i =>
    let row := stageRow t c p s
    let s := vecRun ⟨t.val, c.regs, row, p.i⟩ i s
    s.modTile t.val fun x => x.modChain c.uid fun c => c.due (p.stage + 1) (s.cycle + 4) (if (vecDest i).isSome then none else row) p.i
  | _ => s

/-- The issues of a chain that are due in this cycle. -/
def chainDue (t : TileId) (uid : Nat) (s : State) : State :=
  match (s.tile t.val).chains.find? (·.uid == uid) with
  | none => s
  | some c =>
    let now := c.pend.filter fun p => p.cyc ≤ s.cycle
    let s := s.modTile t.val fun x => x.modChain uid fun c => { c with pend := c.pend.filter fun p => !(p.cyc ≤ s.cycle) }
    now.foldl (fun s p => stageRun t c p s) s

/-- Chains that are over leave the tile. -/
def dropChains (t : Nat) (s : State) : State :=
  s.modTile t fun x => { x with chains := x.chains.filter fun c => !(c.pend.isEmpty && c.till ≤ s.cycle) }

/-- CHAIN_STAGE_ISSUE: the stages due in this cycle issue, oldest chain first (R254). -/
def chainStage (t : TileId) (s : State) : State :=
  (s.tile t.val).chains.foldl (fun s c => chainDue t c.uid s) s

def execChainStageIssue (t : TileId) (s : State) : Res := .next (chainStage t s)

/-- The stages of a chain table entry, by slot and word (R256). -/
def chainStages (b : Bytes) : List (Nat × Word) :=
  (List.range (min 4 (leAt b 0 1))).map fun j => (leAt b (20 + j) 1, leWord (sub b (4 + 4 * j) 4))

/-- The entry of the running program's chain table. -/
def chainEntry (s : State) (k : Nat) : Option (List (Nat × Word)) :=
  match s.running with
  | some p => ((s.slot p).chainTab[k]?).map chainStages
  | none => none

/-- chain.run: at most four chains in flight; stage 0 issues at once (R253). -/
def opChainRun (u : Site) (chain : Fin 256) (s : State) : State :=
  if s.on u then
    let t := u.tile.val
    let s := dropChains t s
    match chainEntry s chain.val with
    | none => s
    | some stages =>
      if 4 ≤ (s.tile t).chains.length then s.coreHaz t 4 slotX
      else
        let c : Chain := ⟨s.uid, (s.tile t).g, stages, [⟨0, s.cycle, none, 0⟩], s.cycle + 1⟩
        chainDue u.tile c.uid ({ s with uid := s.uid + 1 }.modTile t fun x => { x with chains := x.chains ++ [c] })
  else s

def execChainRun (u : Site) (chain : Fin 256) (s : State) : Res := .next (opChainRun u chain s)

end Sys2Proof.Machine
end

