-- ==== Sys2Proof/Machine/Control.lean ====
section
/-!
DEFINITION. The C slot: branches, loops, delays, waits, the tide and the end of a tile's program (R243–R252).
-/
namespace Sys2Proof.Machine

/-! ### Branches and loops -/

def Tile.loop (x : Tile) (k : Nat) : Loop := tget {} x.loops k
def Tile.setLoop (x : Tile) (k : Nat) (l : Loop) : Tile := { x with loops := tset {} x.loops k l }

/-- Loop k and every higher loop deactivated (R246). -/
def Tile.dropLoops (x : Tile) (k : Nat) : Tile := { x with loops := x.loops.filter fun e => e.1 < k }

/-- The lowest active loop whose range a branch target leaves (R246). -/
def Tile.leaves (x : Tile) (target : Nat) : Option Nat :=
  [0, 1, 2, 3].find? fun k => (x.loop k).active && (target < (x.loop k).start || (x.loop k).stop < target)

/-- A branch to a bundle is taken: the delay bundle follows, then the target (R244, R246). -/
def Tile.branch (x : Tile) (target : Nat) : Tile :=
  let x := match x.leaves target with
    | some k => x.dropLoops k
    | none => x
  { x with brTarget := some target }

/-- Loop k started at the bundle issued last, with a pass count (R245, R246). -/
def Tile.startLoop (x : Tile) (k stop passes : Nat) : Tile :=
  let x := if (x.loop k).active then x.dropLoops k else x
  if passes = 0 then x.branch (stop + 1)
  else x.setLoop k ⟨true, x.cur + 1, stop, passes⟩

/-- A loop rule is broken at run time (R245): END before a + 1, or beyond the END of an active lower loop. -/
def Tile.loopBad (x : Tile) (k stop : Nat) : Bool :=
  stop < x.cur + 1 || [0, 1, 2, 3].any fun j => j < k && (x.loop j).active && (x.loop j).stop < stop

/-- The loop ends at a bundle, from loop k downwards: the start of the loop that goes on, if one does (R245). -/
def Tile.loopEnds (x : Tile) (a : Nat) : Nat → Tile × Option Nat
  | 0 => (x, none)
  | k + 1 =>
    let l := x.loop k
    if l.active ∧ l.stop = a then
      if l.passes ≤ 1 then Tile.loopEnds (x.setLoop k {}) a k
      else (x.setLoop k { l with passes := l.passes - 1 }, some l.start)
    else Tile.loopEnds x a k

/-- br (R244). -/
def opBr (u : Site) (target : Fin 1024) (s : State) : State :=
  if s.on u then s.modTile u.tile.val fun x => x.branch target.val else s

/-- A loop form of either kind (R245). -/
def loopForm (u : Site) (k : Fin 4) (stop : Nat) (passes : Nat) (s : State) : State :=
  if s.on u then
    let s := if (s.tile u.tile.val).loopBad k.val stop then s.coreHaz u.tile.val 8 slotC else s
    s.modTile u.tile.val fun x => x.startLoop k.val stop passes
  else s

def opLoopI (u : Site) (k : Fin 4) (stop count : Fin 1024) (s : State) : State :=
  loopForm u k stop.val count.val s

def opLoopR (u : Site) (k : Fin 4) (stop : Fin 1024) (ra : GReg) (s : State) : State :=
  loopForm u k stop.val (s.rd u ra).toNat s

/-! ### Delay -/

/-- delay: the next bundle issues n cycles later (R247). -/
def opDelay (u : Site) (n : BitVec 16) (s : State) : State :=
  if s.on u then s.modTile u.tile.val fun x => { x with core := .delayed (s.cycle + n.toNat) } else s

/-- The cycles of a delay have elapsed (R247). -/
def delayDone (t : Nat) (s : State) : State :=
  match (s.tile t).core with
  | .delayed c =>
    if c ≤ s.cycle then s.modTile t fun x => { x with core := .running, nextAt := s.cycle } else s
  | _ => s

/-! ### Waits -/

/-- The status word of a tag (R156). -/
def TagSt.status (x : TagSt) : Word :=
  if x.kind = 0 then 0 else BitVec.ofNat 32 (x.first * 2 ^ 16 + x.kind.toNat)

/-- The register write of a wait that completes, for the next bundle. A write that a higher slot of its bundle makes in the
same cycle wins (R239). -/
def waitWrite (t : Nat) (rd : GReg) (v : Word) (s : State) : State :=
  let due := s.cycle + 1
  if (s.tile t).mates.contains (due, rd) then s.coreHaz t 1 slotC else s.regW t slotC due (.gset t rd v)

/-- wait.q completes: the status word is written for the next bundle, and the tag's status cleared (R156, R249). -/
def waitQDone (t : Nat) (rd : GReg) (tag : TagNo) (s : State) : State :=
  let x := s.tag t tag.val
  let s := waitWrite t rd x.status s
  (s.setTag t tag.val { x with kind := 0, first := 0 }).modTile t fun y => { y with core := .running, nextAt := s.cycle + 1 }

/-- None of the 64 tags has an outstanding descriptor (R243). -/
def State.tagsIdle (s : State) (t : Nat) : Bool := (List.range 64).all fun k => (s.tag t k).count == 0

/-- wait.cyc completes: C − t is written (R250). -/
def waitCycDone (t : Nat) (rd : GReg) (target since : Nat) (s : State) : State :=
  let s := waitWrite t rd (BitVec.ofNat 32 target - BitVec.ofNat 32 since) s
  s.modTile t fun y => { y with core := .running, nextAt := s.cycle + 1 }

/-- The condition of the tile's pending wait is looked at: when it holds and the slot is not stopping, the wait
completes; a halt point starts pre-emption (R166, R249). -/
def waitCheck (t : Nat) (s : State) : State :=
  if s.held then s.checkHalt t
  else
    match (s.tile t).core with
    | .waitTag tag rd _ => if (s.tag t tag.val).count = 0 ∧ s.haltedTag t tag.val = false then waitQDone t rd tag s else s.checkHalt t
    | .waitAll _ => if s.tagsIdle t then s.modTile t fun y => { y with core := .running, nextAt := s.cycle + 1 } else s.checkHalt t
    | .waitCyc c rd since => if c ≤ s.cycle then waitCycDone t rd c since s else s
    | _ => s

/-- A wait is entered: it completes at once when its condition holds; else words on the tile's loop are reported
(R86, R249). -/
def enterWait (t : Nat) (c : CoreState) (s : State) : State :=
  let s := waitCheck t (s.modTile t fun x => { x with core := c })
  if (s.tile t).core = c then s.waitWords t else s

/-- wait.q (R156, R249). -/
def opWaitQ (u : Site) (rd : GReg) (tag : TagNo) (s : State) : State :=
  if s.on u then enterWait u.tile.val (.waitTag tag rd s.cycle) s else s

/-- wait.qall (R243). -/
def opWaitQall (u : Site) (s : State) : State :=
  if s.on u then enterWait u.tile.val (.waitAll s.cycle) s else s

/-- wait.cyc (R250). -/
def opWaitCyc (u : Site) (rd ra : GReg) (s : State) : State :=
  if s.on u then enterWait u.tile.val (.waitCyc (s.rd u ra).toNat rd s.cycle) s else s

/-! ### Tide and end -/

/-- tide: the tile arrives, naming the next span record (R251). -/
def opTide (t : TileId) (span : Fin 4096) (s : State) : State :=
  ((s.modTile t.val fun x => { x with core := .arrived span.val s.cycle }).checkHalt t.val).waitWords t.val

/-- end (R252). -/
def opEnd (t : TileId) (s : State) : State := s.modTile t.val fun x => { x with core := .ended }

/-! ### Meanings -/

def execBr (u : Site) (target : Fin 1024) (s : State) : Res := .next (opBr u target s)
def execLoopI (u : Site) (k : Fin 4) (stop count : Fin 1024) (s : State) : Res := .next (opLoopI u k stop count s)
def execLoopR (u : Site) (k : Fin 4) (stop : Fin 1024) (ra : GReg) (s : State) : Res := .next (opLoopR u k stop ra s)
/-- DELAY: N = 0 is a reserved encoding (R243). -/
def execDelay (u : Site) (n : BitVec 16) (s : State) : Res :=
  if n = 0 then .refused .reservedEncoding else .next (opDelay u n s)
def execDelayExpiry (t : TileId) (s : State) : Res := .next (delayDone t.val s)
def execWaitQ (u : Site) (rd : GReg) (tag : TagNo) (s : State) : Res := .next (opWaitQ u rd tag s)
def execWaitQall (u : Site) (s : State) : Res := .next (opWaitQall u s)
def execWaitCyc (u : Site) (rd ra : GReg) (s : State) : Res := .next (opWaitCyc u rd ra s)
def execWaitComplete (t : TileId) (s : State) : Res := .next (waitCheck t.val s)
def execTide (t : TileId) (span : Fin 4096) (s : State) : Res := .next (opTide t span s)
def execEndProg (t : TileId) (s : State) : Res := .next (opEnd t s)

end Sys2Proof.Machine
end

