-- ==== Sys2Proof/Machine/Issue.lean ====
section
/-!
DEFINITION. Issue of a bundle: its eight slots, its loop ends, and the address of the next bundle (R234–R248, R255).
-/
namespace Sys2Proof.Machine

/-- The meaning of an operation word, by its slot's operation. -/
def slotMeaning (i : Instr) (s : State) : Res :=
  match i with
  | .br u target => execBr u target s
  | .loopI u k endA count => execLoopI u k endA count s
  | .loopR u k endA ra => execLoopR u k endA ra s
  | .delay u n => execDelay u n s
  | .waitQ u rd tag => execWaitQ u rd tag s
  | .waitQall u => execWaitQall u s
  | .waitCyc u rd ra => execWaitCyc u rd ra s
  | .add u rd ra rb => execAdd u rd ra rb s
  | .sub u rd ra rb => execSub u rd ra rb s
  | .andR u rd ra rb => execAndR u rd ra rb s
  | .orR u rd ra rb => execOrR u rd ra rb s
  | .xorR u rd ra rb => execXorR u rd ra rb s
  | .sll u rd ra rb => execSll u rd ra rb s
  | .srl u rd ra rb => execSrl u rd ra rb s
  | .sra u rd ra rb => execSra u rd ra rb s
  | .slt u rd ra rb => execSlt u rd ra rb s
  | .sltu u rd ra rb => execSltu u rd ra rb s
  | .mul u rd ra rb => execMul u rd ra rb s
  | .minS u rd ra rb => execMinS u rd ra rb s
  | .maxS u rd ra rb => execMaxS u rd ra rb s
  | .addi u rd ra imm => execAddi u rd ra imm s
  | .andi u rd ra imm => execAndi u rd ra imm s
  | .ori u rd ra imm => execOri u rd ra imm s
  | .xori u rd ra imm => execXori u rd ra imm s
  | .slli u rd ra sh => execSlli u rd ra sh s
  | .srli u rd ra sh => execSrli u rd ra sh s
  | .srai u rd ra sh => execSrai u rd ra sh s
  | .slti u rd ra imm => execSlti u rd ra imm s
  | .ldi u rd imm => execLdi u rd imm s
  | .ldih u rd imm => execLdih u rd imm s
  | .ldW u rd ra imm => execLdW u rd ra imm s
  | .stW u rd ra imm => execStW u rd ra imm s
  | .pcmp u pd ra rb c => execPcmp u pd ra rb c s
  | .plog u pd pa pb f => execPlog u pd pa pb f s
  | .pset u pd v => execPset u pd v s
  | .flagsRd u rd => execFlagsRd u rd s
  | .tidRd u rd => execTidRd u rd s
  | .spanRd u rd => execSpanRd u rd s
  | .lcRd u rd k => execLcRd u rd k s
  | .tsBank u target ra tag => execTsBank u target ra tag s
  | .mmStream u arr rl rls rr rrs set cont => execMmStream u arr rl rls rr rrs set cont s
  | .mmCfg u arr ra => execMmCfg u arr ra s
  | .mmPwr u arr off => execMmPwr u arr off s
  | .feltInject u lmask revs ra rs sc sw => execFeltInject u lmask revs ra rs sc sw s
  | .feltRemove u lmask wr ra => execFeltRemove u lmask wr ra s
  | .feltCopy u lmask ra => execFeltCopy u lmask ra s
  | .couchDrain u arr set epi re rs ru => execCouchDrain u arr set epi re rs ru s
  | .couchSet u epi ra => execCouchSet u epi ra s
  | .vadd u vd va vb pk => execVadd u vd va vb pk s
  | .vsub u vd va vb pk => execVsub u vd va vb pk s
  | .vmul u vd va vb pk => execVmul u vd va vb pk s
  | .vfma u vd va vb pk => execVfma u vd va vb pk s
  | .vfnma u vd va vb pk => execVfnma u vd va vb pk s
  | .vmin u vd va vb pk => execVmin u vd va vb pk s
  | .vmax u vd va vb pk => execVmax u vd va vb pk s
  | .vminn u vd va vb pk => execVminn u vd va vb pk s
  | .vmaxn u vd va vb pk => execVmaxn u vd va vb pk s
  | .vabs u vd va => execVabs u vd va s
  | .vneg u vd va => execVneg u vd va s
  | .vcmp u vd va vb c => execVcmp u vd va vb c s
  | .vsel u vd va vb => execVsel u vd va vb s
  | .vdiv u vd va vb => execVdiv u vd va vb s
  | .vsqrt u vd va => execVsqrt u vd va s
  | .vtr u vd va f => execVtr u vd va f s
  | .vred u vd va f => execVred u vd va f s
  | .vcvt u vd va fmt wid rm => execVcvt u vd va fmt wid rm s
  | .vcvti u vd va wid rm => execVcvti u vd va wid rm s
  | .viadd u vd va vb => execViadd u vd va vb s
  | .visub u vd va vb => execVisub u vd va vb s
  | .viand u vd va vb => execViand u vd va vb s
  | .vior u vd va vb => execVior u vd va vb s
  | .vixor u vd va vb => execVixor u vd va vb s
  | .visll u vd va vb => execVisll u vd va vb s
  | .visrl u vd va vb => execVisrl u vd va vb s
  | .vld u vd ra sz => execVld u vd ra sz s
  | .vst u va ra sz => execVst u va ra sz s
  | .vbc u vd ra => execVbc u vd ra s
  | .vidx u vd => execVidx u vd s
  | .vmvg u rd va lane => execVmvg u rd va lane s
  | .vSr u rt rb rc => execVSr u rt rb rc s
  | .vFelt u lane va rs scf => execVFelt u lane va rs scf s
  | .vLp u va ra rb => execVLp u va ra rb s
  | .meshSend u rt rs rd len => execMeshSend u rt rs rd len s
  | .rvRead u lev ro ra len => execRvRead u lev ro ra len s
  | .rvWrite u lev ro ra len => execRvWrite u lev ro ra len s
  | .qPush u q ra => execQPush u q ra s
  | .pulpStart u ra => execPulpStart u ra s
  | .wvPin u q re rv tag => execWvPin u q re rv tag s
  | .wvUnpin u q re rv tag => execWvUnpin u q re rv tag s
  | .wvClaim u q re tag => execWvClaim u q re tag s
  | .wvPublish u q re tag => execWvPublish u q re tag s
  | .chainRun u chain => execChainRun u chain s
  | .tide t span => execTide t span s
  | .endProg t => execEndProg t s
  | _ => .next s

/-- The state after the operation of a slot; a reserved encoding has no effect. -/
def slotRun (i : Instr) (s : State) : State :=
  match slotMeaning i s with
  | .next s' => s'
  | _ => s

/-- The operation word of a slot of a bundle, as the tile's instruction memory holds it. -/
def slotWord (s : State) (t a k : Nat) : Word := tget 0 (s.tile t).imem (8 * a + k)

/-- The operations of a bundle; a pair of slots whose word has an uncorrectable error is no-operation (R408). -/
def fetchBundle (t : TileId) (a : Nat) (s : State) : State × List SlotOp :=
  (List.range 4).foldl (fun (p : State × List SlotOp) k =>
    let w := t.val * 4096 + 4 * a + k
    let dead := decide (2 ≤ tget 0 s.mem.ecc (eccKey placeImem w))
    let s := p.1.eccRead placeImem w (Src.tile t.val) 0 (32 * a + 8 * k) false p.1.running
    let at' (j : Nat) : SlotOp := if dead then .nop else decodeSlot t j (slotWord s t.val a j)
    (s, p.2 ++ [at' (2 * k), at' (2 * k + 1)])) (s, [])

/-- The slot that a chain.run of the bundle takes for its stage 0 (R253, R255). -/
def chainTakes (s : State) : SlotOp → Option Nat
  | .op (.chainRun u chain) =>
    if s.on u ∧ ((dropChains u.tile.val s).tile u.tile.val).chains.length < 4 then
      (chainEntry s chain.val).bind fun l => l.head?.map (·.1)
    else none
  | _ => none

/-- The operation of slot k of the bundle that issues: discarded when its predicate holds and stage 0 of a chain.run in the
same bundle takes its unit (R237, R255). -/
def bundleSlot (t : TileId) (k : Nat) (takes : Option Nat) (o : SlotOp) (s : State) : State :=
  match o with
  | .op i => if takes = some k ∧ s.on (wordSite t (slotWord s t.val (s.tile t.val).cur k)) then s.coreHaz t.val 3 k else slotRun i s
  | _ => s

/-- The seven slots S to X in order. -/
def runSlots (t : TileId) (takes : Option Nat) (l : List SlotOp) (s : State) : State :=
  (rangeFrom 1 7).foldl (fun s k => bundleSlot t k takes (l.getD k .nop) s) s

/-- The C slot runs last; its register write stands before those of the higher slots (R239). -/
def runC (n0 : Nat) (o : SlotOp) (s : State) : State :=
  match o with
  | .op i =>
    let n1 := s.sched.length
    let s := slotRun i s
    { s with sched := s.sched.take n0 ++ s.sched.drop n1 ++ (s.sched.drop n0).take (n1 - n0) }
  | _ => s

/-- The writes of the other slots of a bundle whose wait goes on: each wins over the wait's own write of the register in the
same cycle (R239). -/
def noteMates (t n0 : Nat) (s : State) : State :=
  if (s.tile t).core = .running then s
  else
    let l := (s.sched.drop n0).filterMap fun e => match e.2 with
      | .gset t' rd _ => if t' = t then some (e.1, rd) else none
      | _ => none
    let r := s.mem.acc.filterMap fun a => match a with
      | .read t' _ _ _ (.greg rd due) => if t' = t then some (due, rd) else none
      | _ => none
    s.modTile t fun x => { x with mates := l ++ r }

/-- The address of the bundle after one at a, and the loops as they are then (R244, R245). -/
def nextPc (x : Tile) (a : Nat) (target : Option Nat) : Tile :=
  match target with
  | some b => { x with pc := b }
  | none =>
    if x.brTarget.isSome then { x with pc := a + 1 }
    else
      let r := x.loopEnds a 4
      { r.1 with pc := r.2.getD (a + 1) }

/-- A tile whose next bundle would be address 1,024 stops (R248). -/
def stopAtEnd (t : Nat) (s : State) : State :=
  if 1024 ≤ (s.tile t).pc ∧ (s.tile t).core = .running then
    (s.coreHaz t 7 slotC).modTile t fun x => { x with core := .ended }
  else s

/-- A tile issues in this cycle: it is not in a delay or a wait, and its polder is ACTIVE (R227). -/
def mayIssue (s : State) (t : Nat) : Bool :=
  let x := s.tile t
  x.core == .running && decide (x.nextAt ≤ s.cycle) && s.polder (polderOf t) == 0 && s.running.isSome

/-- BUNDLE_ISSUE: the next bundle of the tile issues (R236). -/
def bundleIssue (t : TileId) (s : State) : State :=
  let n := t.val
  if !mayIssue s n then s
  else if 1024 ≤ (s.tile n).pc then stopAtEnd n s
  else
    let a := (s.tile n).pc
    let target := (s.tile n).brTarget
    let s := s.modTile n fun x => { x with cur := a, brTarget := none, mates := [] }
    let f := fetchBundle t a s
    let n0 := f.1.sched.length
    let s := runSlots t (chainTakes f.1 (f.2.getD 7 SlotOp.nop)) f.2 f.1
    let c := f.2.getD 0 SlotOp.nop
    let s := match target with
      | some _ => if c = SlotOp.nop then s else s.coreHaz n 2 slotC
      | none => noteMates n n0 (runC n0 c s)
    let s := s.modTile n fun x => nextPc { x with nextAt := s.cycle + 1 } a target
    stopAtEnd n s

def execBundleIssue (t : TileId) (s : State) : Res := .next (bundleIssue t s)

end Sys2Proof.Machine
end

