-- ==== Sys2Proof/Machine/LogCmd.lean ====
section
/-!
DEFINITION. Commands of the logbook: tokens (R447), the clear (R452), and the bytes of its window (R442, R450).
-/
namespace Sys2Proof.Machine

/-- LOG_TOKEN_TICK: an interval of a code ends. -/
def tokenTick (c : BitVec 16) (s : State) : State :=
  let x := s.log.lim c
  if Ev.known c ∧ x.burst ≠ 0 then { s with log := s.log.setLim c { x with tokens := min x.burst (x.tokens + 1) } } else s

def execLogTokenTick (c : BitVec 16) (s : State) : Res := .next (tokenTick c s)

/-- LOG_CLEAR: the clear begins. -/
def logClear (s : State) : State :=
  if s.log.busy then s
  else
    let last := s.log.recs.foldl (fun n e => max n e.2.seq) 0
    { s with log := { s.log with busy := true, clearAt := 0, removed := (s.log.recs.length, (s.reg Reg.LOG_DROP_COUNT).toNat, last) } }

def execLogClear (s : State) : Res := .next (s.bar0 (logClear))

/-- The number of a record that waited is known: it goes to the event entry that waits for it, or to its slot (R360,
R410). -/
def giveNumber (mark n : Nat) (s : State) : State :=
  match s.host.numbering.find? fun e => e.1 == mark with
  | some e =>
    let s := { s with host := { s.host with numbering := s.host.numbering.erase e } }
    placeEvent (mark % 16) e.2.1 { e.2.2 with info2 := n } s
  | none =>
    let k := mark % 16
    let p := s.slot k
    if mark < 16 then
      let p := match p.pendStop with
        | some (c, none) => { p with pendStop := some (c, some n) }
        | _ => p
      let p := match p.ending with
        | some (ev, c, none) => { p with ending := some (ev, c, some n) }
        | _ => p
      s.setSlot k p
    else if p.preSeq = none then s.setSlot k { p with preSeq := some n }
    else s

/-- An event of the staging buffer is written (R452). -/
def unstage (e : LogEv) (s : State) : State :=
  let r := logEvent s e.code e.src e.data
  match e.stopOf with
  | some m => giveNumber m r.2 r.1
  | none => r.1

/-- LOG_CLEARED: every position is empty; the record of the clear follows, and then what waited. -/
def logCleared (s : State) : State :=
  if s.log.busy then
    let r := s.log.removed
    let wait := s.log.staging
    let s := { s with log := { s.log with recs := [], busy := false, staging := [] } }
    let lim := s.log.lim Ev.LOG_CLEARED
    let s := logStore s 0 Ev.LOG_CLEARED (Src.fn 0) (leBytes r.1 2 ++ leBytes 0 2 ++ leBytes r.2.1 4 ++ leBytes r.2.2 8)
    let s := { s with log := s.log.setLim Ev.LOG_CLEARED { lim with pending := 0 } }
    wait.foldl (fun s e => unstage e s) s
  else s

def execLogCleared (s : State) : Res := .next (logCleared s)

end Sys2Proof.Machine
end

