-- ==== Sys2Proof/Machine/RegAccess.lean ====
section
/-!
DEFINITION. What a read of each register returns, with the fields the device computes, the side effects of reads (R7,
R8, R145, R232, R421), and what a write does (R10–R14 and the rules of each table).
-/
namespace Sys2Proof.Machine

/-! ### Addresses (R345–R347) -/

/-- The register a function's BAR reaches at an offset: the doorbell page of a VF stands at its 0xF000. -/
def regAt (a : RegAddr) : RegNo :=
  let o := a.off.toNat
  if a.bar.val ≠ 0 ∧ 0xF000 ≤ o ∧ o < 0x10000 then Reg.doorbell a.bar.val (o - 0xF000) else 0x1000000 * a.bar.val + o

/-- A register lies in a block of registers: function, queue and number, for those of the host interface. -/
def queueOf (n : RegNo) : Option (Nat × Nat × Nat) :=
  let f := n / 0x1000000
  let o := n % 0x1000000
  if f = 0 then (if 0x40000 ≤ o ∧ o < 0x40400 then some (0, (o - 0x40000) / 0x40, (o - 0x40000) % 0x40) else none)
  else if o < 0x400 then some (f, o / 0x40, o % 0x40)
  else none

/-- A function register: the function and its offset. -/
def fnRegOf (n : RegNo) : Option (Nat × Nat) :=
  let f := n / 0x1000000
  let o := n % 0x1000000
  if f = 0 then (if 0x40700 ≤ o ∧ o < 0x40720 then some (0, o - 0x40700) else none)
  else if 0x700 ≤ o ∧ o < 0x720 then some (f, o - 0x700)
  else none

/-- A link port register: the port and its offset. -/
def portRegOf (n : RegNo) : Option (Nat × Nat) := if 0x50100 ≤ n ∧ n < 0x50400 then some ((n - 0x50100) / 0x40, (n - 0x50100) % 0x40) else none

/-! ### Computed fields -/

def word (n : Nat) : Word := BitVec.ofNat 32 n

/-- HIF_Qq_STATE (R349). -/
def viewQueue (s : State) (f q r : Nat) (w : Word) : Word :=
  if r = 0x14 then
    let x := s.hq f q
    word (x.sqHead * 2 ^ 20 + x.cqTail * 2 ^ 8 + b2n x.phase * 2 + b2n x.active)
  else w

/-- Slot state and owner as a function sees them (R363, R365). -/
def viewSlot (s : State) (f k : Nat) : Nat :=
  let p := s.slot k
  let o := (p.owner.map (·.val)).getD 0xF
  let st : Nat := if p.teardown then 3 else match p.state with
    | .empty => 0
    | .admitted => 1
    | .running => 2
    | .stopping => 3
    | .preempted => 4
    | .restoring => 5
    | .ended => 6
  if f = 0 ∨ o = f then o * 16 + st else 0xF0

/-- Function registers (R365). -/
def viewFn (s : State) (f r : Nat) (w : Word) : Word :=
  if r = 0 then wput w 24 16 (s.freeCredits f)
  else if r = 8 then let q := s.quotaOf f; word (q.gib * 2 ^ 20 + q.slots * 2 ^ 10 + q.credits)
  else if 0x10 ≤ r then
    let n := (r - 0x10) / 4
    word (viewSlot s f (4 * n) + 2 ^ 8 * viewSlot s f (4 * n + 1) + 2 ^ 16 * viewSlot s f (4 * n + 2) + 2 ^ 24 * viewSlot s f (4 * n + 3))
  else w

/-- PT_STATE (R296). -/
def portCode : PortState → Nat
  | .disabled => 0
  | .detect => 1
  | .eq => 2
  | .align => 3
  | .ident => 4
  | .active => 5
  | .degraded => 6
  | .recover => 7
  | .standby => 8
  | .down => 9

/-- Link port registers (R320). With PE_OVR 0 the tap fields read the trained values. -/
def viewPort (s : State) (p r : Nat) (w : Word) : Word :=
  let x := s.port p
  if r = 0 then
    word (portCode x.st * 2 ^ 28 + x.width * 2 ^ 24 + b2n x.rev * 2 ^ 23 + x.cause % 16 * 2 ^ 16 + x.pol % 256 * 2 ^ 8 + x.lgood % 256)
  else if r = 4 then
    match x.peer with
    | some (q, rank) => word (2 ^ 31 + q % 16 * 2 ^ 12 + rank % 1024)
    | none => 0
  else if 0x20 ≤ r ∧ ¬ w.getLsbD 31 then
    match tfind x.tx ((r - 0x20) / 4) with
    | some t => wput w 29 6 t.taps
    | none => w
  else w

/-- MiB reserved, save areas included, and MiB in retired frames (R144, R412). -/
def reservedMiB (s : State) : Nat := s.slots.foldl (fun n e => n + e.2.hbmMiB + (if e.2.save.isSome then 1024 else 0)) 0

/-- MEM_RSV_FREE_* of a levee. -/
def viewRsv (s : State) (l : Nat) : Word :=
  let g := freeGranules s l
  word ((g.foldl (fun n r => max n r.2) 0) * 65536 + g.foldl (fun n r => n + r.2) 0)

/-- MEM_P_* (R144). -/
def viewMemSlot (s : State) (n : RegNo) : Word :=
  let p := s.slot (s.rf Reg.MEM_PSEL 3 0)
  let w (l : Nat) : Nat := (tget (0, 0) p.win l).2
  if n = Reg.MEM_P_HBM then word p.hbmMiB
  else if n = Reg.MEM_P_RSV01 then word (w 1 * 65536 + w 0)
  else if n = Reg.MEM_P_RSV23 then word (w 3 * 65536 + w 2)
  else
    match p.save with
    | some f => word (2 ^ 31 + f)
    | none => 0

/-- Reams armed and not DONE (RS_BUSY). -/
def reamsBusy (s : State) : Nat :=
  s.red.foldl (fun n e => n + (e.2.reams.filter fun r => r.2.st != .idle && r.2.st != .done).length) 0

/-- RR_STATE and RR_MISSING (R342). -/
def viewReam (s : State) : Word :=
  match s.ream? (s.rf Reg.RED_SEL 31 28) (s.rf Reg.RED_SEL 11 0) with
  | none => 0x7FF
  | some r =>
    let code : Nat := match r.st with
      | .idle => 0
      | .fill => 1
      | .scatter => 2
      | .summed => 3
      | .gather => 4
      | .done => 5
      | .abandoned => 6
    let lack : Option Nat := if r.red ∧ r.st ≠ .idle then ((owned s r).head?).bind fun i => (missing s r (tget {} r.slices i)).head? else none
    word (code * 2 ^ 29 + lack.getD 0x7FF)

/-- RR_FILL: the fill count, or the count of the gather (log entry 60). -/
def viewReamFill (s : State) : Word :=
  match s.ream? (s.rf Reg.RED_SEL 31 28) (s.rf Reg.RED_SEL 11 0) with
  | none => 0
  | some r =>
    let own := r.gcount.foldl (fun n e => n + e.2) 0
    word (match r.st with
      | .fill => if r.red then r.count else own
      | .scatter => r.count
      | .summed => if r.gath then own else r.count
      | .gather => r.arrived.length
      | .done => if r.gath then r.arrived.length else r.count
      | .abandoned => r.count
      | .idle => 0)

/-- The doorbell counter selected (R341). -/
def doorbellCounter (s : State) : BitVec 64 := tget 0 (s.redSlot (s.rf Reg.RED_SEL 31 28)).doorbells (s.rf Reg.RED_DB_SEL 5 0)

/-- GRID_SPAREk (R28) and ID_ARRAY_REPAIRS (R31). -/
def viewSpare (k : Nat) : Word :=
  word ((List.range 4).foldl (fun n j =>
    let r : Fin 48 := ⟨(4 * k + j) % 48, Nat.mod_lt _ (by decide)⟩
    n + (0x80 * b2n (Config.spareUsed r) + (Config.retiredColumn r).val) * 2 ^ (8 * j)) 0)

def viewRepairs : Word :=
  let n (col : Bool) : Nat := (Config.repairs.filter fun r => r.2.2.1 == col).length
  word (n true * 65536 + n false)

/-- RAS_REPAIR (R414). -/
def viewRepair (s : State) : Word :=
  match Config.repairs[s.rf Reg.RAS_REPAIR_SEL 13 0]? with
  | some r => word (2 ^ 31 + b2n r.2.2.1 * 2 ^ 30 + r.2.2.2.val * 2 ^ 24 + r.2.1.val * 2 ^ 12 + r.1.val)
  | none => 0

/-- Tasks for which a condition holds, as a bit mask. -/
def taskMask (f : Nat → Bool) : Nat := ((List.range 6).filter f).foldl (fun m k => m + 2 ^ k) 0

/-- A logbook record (R442). -/
def LogRec.bytes (r : LogRec) : Bytes :=
  leBytes (r.seq % 2 ^ 48 + r.code.toNat * 2 ^ 48) 8 ++ padTo r.data 16 ++
    leBytes (r.seq % 2 ^ 32 + r.supp % 65536 * 2 ^ 34 + r.src % 4096 * 2 ^ 50 + r.sev % 4 * 2 ^ 62) 8

/-- LR_SEQC of a record in a word that cannot be corrected: unequal to LR_SEQ (R408, R450). -/
def brokenSeqc (r : LogRec) : Word :=
  let w := Config.brokenCopy r.seq
  if w.toNat = r.seq % 2 ^ 32 then w + 1 else w

/-- The window of the logbook: the word at a byte offset in it (R450). -/
def viewLogWindow (s : State) (o : Nat) : Word :=
  let p := (s.rf Reg.LOG_CURSOR 12 0 + o / 32) % 8192
  match tfind s.log.recs p with
  | some r =>
    let bad := (List.range 4).any fun k => decide (eccReach placeLog < tget 0 s.mem.ecc (eccKey placeLog (4 * r.seq + k)))
    if bad && o % 32 == 24 then brokenSeqc r else leWord (r.bytes.drop (o % 32))
  | none => 0

/-- The rate limit shown (R453). -/
def viewRate (s : State) : Word :=
  let c := BitVec.ofNat 16 (s.rf Reg.LOG_RSEL 15 0)
  if Ev.severity c = 3 then 0 else let x := s.log.lim c; word (x.period * 65536 + x.burst)

/-- PENDING (R410): a stopping record is pending for the RUNNING slot. -/
def stopPending (s : State) : Bool :=
  match s.running with
  | some k => (s.slot k).state == .running && (s.slot k).pendStop.isSome
  | none => false

/-- Registers of the identity, clocking, memory and link blocks with fields the device computes. -/
def viewLow (s : State) (n : RegNo) (w : Word) : Word :=
  if 0x100 ≤ n ∧ n < 0x130 then viewSpare ((n - 0x100) / 4)
  else if n = 0x130 then viewRepairs
  else if n = Reg.CLK_STATUS then wput w 7 7 (b2n s.anyForced)
  else if n = Reg.CLK_DROOP_TH then word (tget 0 s.clk.dt (s.rf Reg.CLK_NODE_SEL 4 0))
  else if n = Reg.CLK_FB_MARGIN then
    let x := s.rf Reg.CLK_NODE_SEL 4 0
    word (tget 255 s.clk.fmMin x * 256 + (List.range (monitors x)).foldl (fun m k => min m (s.marginAt x k)) 255)
  else if n = Reg.MEM_HBM_RESERVED then word (reservedMiB s)
  else if n = Reg.MEM_HBM_FREE then word (2 * (freeFrames s).foldl (fun k r => k + r.2) 0)
  else if n = Reg.MEM_HBM_FREE_1G then word (freeGiB (freeFrames s)).length
  else if Reg.MEM_RSV_FREE_LN ≤ n ∧ n < Reg.MEM_PSEL then viewRsv s ((n - Reg.MEM_RSV_FREE_LN) / 4)
  else if Reg.MEM_P_HBM ≤ n ∧ n ≤ Reg.MEM_P_SAVE then viewMemSlot s n
  else if n = Reg.TRN_WV_STATUS then
    match claimWaiting s with
    | some e => wput (wput w 31 31 1) 11 0 e
    | none => w
  else if n = Reg.LNK_STATUS then wput w 27 16 (((List.range 12).filter s.linkUp).foldl (fun m k => m + 2 ^ k) 0)
  else w

/-- Registers of the reduction, logbook, security and RAS blocks and the sensor mirror. -/
def viewHigh (s : State) (n : RegNo) (w : Word) : Word :=
  if n = Reg.RED_STATUS then wput w 27 16 (reamsBusy s)
  else if n = Reg.RED_REAM_STATE then viewReam s
  else if n = Reg.RED_REAM_FILL then viewReamFill s
  else if n = Reg.RED_DB_LO then (doorbellCounter s).setWidth 32
  else if n = Reg.RED_DB_HI then ((doorbellCounter s) >>> 32).setWidth 32
  else if n = Reg.LOG_STATUS then wput (wput w 31 31 (b2n s.log.busy)) 16 3 s.log.recs.length
  else if n = Reg.LOG_SEQ_NEXT_LO then word s.log.seqNext
  else if n = Reg.LOG_SEQ_NEXT_HI then word (s.log.seqNext / 2 ^ 32 % 65536)
  else if n = Reg.LOG_RATE then viewRate s
  else if n = Reg.LOG_RSUPP then word (s.log.lim (BitVec.ofNat 16 (s.rf Reg.LOG_RSEL 15 0))).pending
  else if 0x71000 ≤ n ∧ n < 0x72000 then viewLogWindow s (n - 0x71000)
  else if 0x81000 ≤ n ∧ n < 0x82000 then leWord (mread s.boot.window (n - 0x81000) 4)
  else if n = Reg.SEC_STATUS then
    wput (wput (wput w 31 31 debugLockBit) 25 22 Config.revoked.toNat) 15 10 s.svnFused
  else if n = Reg.SEC_ROM_VER then Config.romVersion
  else if n = Reg.ERR_STATUS then wput w 31 31 (b2n (stopPending s))
  else if n = Reg.RAS_REPAIR then viewRepair s
  else if n = Reg.RAS_MAINT_STATUS then word (taskMask (taskDue s) * 65536 + taskMask (runsNow s) * 256 + taskMask (taskForces s))
  else if n = Reg.RAS_TASK_CFG then s.taskCfg (s.rf Reg.RAS_TASK_SEL 2 0)
  else if n = Reg.RAS_TASK_AGE then word (s.taskAge (s.rf Reg.RAS_TASK_SEL 2 0) / 10000)
  else if 0xA0000 ≤ n ∧ n < 0xA0100 then (s.temp ((n - 0xA0000) / 4)).setWidth 32
  else w

/-- What a read of the whole register returns. -/
def State.view (s : State) (n : RegNo) : Word :=
  let w := s.reg n
  match queueOf n, fnRegOf n, portRegOf n with
  | some (f, q, r), _, _ => viewQueue s f q r w
  | none, some (f, r), _ => viewFn s f r w
  | none, none, some (p, r) => viewPort s p r w
  | none, none, none => if n < 0x60000 then viewLow s n w else viewHigh s n w

/-! ### Reads -/

/-- A 32-bit read with its side effects: the latches of the pairs (R8), and the captures that a read re-arms. -/
def readWord (n : RegNo) (s : State) : Word × State :=
  if Reg.isPair n then (s.view n, { s with latch := tput s.latch n (s.view (n + 4)) })
  else if 4 ≤ n ∧ Reg.isPair (n - 4) then
    match tfind s.latch (n - 4) with
    | some w => (w, { s with latch := tdel s.latch (n - 4) })
    | none => (s.view n, s)
  else if n = Reg.MEM_XF_INFO then (s.view n, { s with xfHeld := false })
  else if n = Reg.CLK_SLIP_INFO then (s.view n, { s with slipHeld := false })
  else if n = Reg.ERR_FIRST_FATAL then (s.view n, { s with fatalHeld := false })
  else (s.view n, s)

/-- A read of a register at a width: the data it returns stands in `rdata` (R7, R8). -/
def readReg (n : RegNo) (w : ReadWidth) (s : State) : State :=
  let r := readWord n s
  let put (d : Nat) (s : State) : State := { s with host := { s.host with rdata := BitVec.ofNat 64 d } }
  match w with
  | .byte k => put (r.1.toNat / 2 ^ (8 * k.val) % 256) r.2
  | .half k => put (r.1.toNat / 2 ^ (16 * k.val) % 65536) r.2
  | .word => put r.1.toNat r.2
  | .quad =>
    let h := readWord (n + 4) r.2
    put (r.1.toNat + 2 ^ 32 * h.1.toNat) h.2

/-- PAIR_LOW_READ. -/
def pairLow (a : RegAddr) (w : ReadWidth) (s : State) : State := if Reg.isPair (regAt a) then readReg (regAt a) w s else s

def execPairLowRead (a : RegAddr) (w : ReadWidth) (s : State) : Res := .next (s.bar0 (pairLow a w))

/-- PAIR_HIGH_READ. -/
def pairHigh (a : RegAddr) (w : ReadWidth) (s : State) : State :=
  if 4 ≤ regAt a ∧ Reg.isPair (regAt a - 4) then readReg (regAt a) w s else s

def execPairHighRead (a : RegAddr) (w : ReadWidth) (s : State) : Res := .next (s.bar0 (pairHigh a w))

/-- Reads that re-arm a capture. -/
def execXfInfoRead (w : ReadWidth) (s : State) : Res := .next (s.bar0 (readReg Reg.MEM_XF_INFO w))
def execSlipInfoRead (w : ReadWidth) (s : State) : Res := .next (s.bar0 (readReg Reg.CLK_SLIP_INFO w))
def execFirstFatalRead (w : ReadWidth) (s : State) : Res := .next (s.bar0 (readReg Reg.ERR_FIRST_FATAL w))

/-! ### Writes -/

/-- Restart of the occupancy range that the sluices have shown (R232). -/
def sluiceRestart (s : State) : State := s.setReg Reg.CLK_SLUICE_MON 0x66

def execSluiceMonRestart (s : State) : Res := .next (s.bar0 (sluiceRestart))

/-- FM_MIN of the selected node as written, which 0xFF restarts (R232), and what the monitors read in the cycle after
it (R223). -/
def setFmMin (v : Nat) (s : State) : State :=
  let x := s.rf Reg.CLK_NODE_SEL 4 0
  let low := (List.range (monitors x)).foldl (fun k m => min k (s.marginAt x m)) v
  { s with clk := { s.clk with fmMin := tset 255 s.clk.fmMin x low } }

def execFbMarginRestart (s : State) : Res := .next (s.bar0 (setFmMin 255))

/-- Fields with reserved encodings: register, bits, and the values a write may place (R13). -/
def fieldRules : List (RegNo × Nat × Nat × (Nat → Bool)) := [
  (Reg.PWR_CAP, 31, 16, fun v => decide (10 ≤ v ∧ v ≤ 10000)), (Reg.PWR_CAP, 15, 0, fun v => decide (600 ≤ v ∧ v ≤ 2400)),
  (Reg.LL_CTRL, 10, 0, fun v => decide (200 ≤ v ∧ v ≤ 2000)),
  (Reg.THM_LIMITS, 23, 16, fun v => decide (60 ≤ v ∧ v ≤ 0x5D)), (Reg.THM_LIMITS, 15, 8, fun v => decide (60 ≤ v ∧ v ≤ 0x64)),
  (Reg.THM_LIMITS, 7, 0, fun v => decide (60 ≤ v ∧ v ≤ 0x69)), (Reg.CLK_OPSEL, 3, 0, fun v => decide (v ≤ 8)),
  (Reg.CLK_NODE_SEL, 4, 0, fun v => decide (v ≤ 19)), (Reg.LNK_TIDE_CFG, 31, 16, fun v => v != 0), (Reg.LNK_TIDE_CFG, 15, 0, fun v => v != 0),
  (Reg.RED_TIMERS, 31, 16, fun v => v != 0), (Reg.RED_TIMERS, 15, 0, fun v => v != 0),
  (Reg.LOG_RSEL, 15, 0, fun v => Ev.known (BitVec.ofNat 16 v)), (Reg.RAS_MAINT_CTRL, 31, 16, fun v => decide (20 ≤ v ∧ v ≤ 5000)),
  (Reg.RAS_TASK_SEL, 2, 0, fun v => decide (v ≤ 5)), (Reg.MESH_CTRL, 7, 0, fun v => decide (16 ≤ v))]

/-- A write with every reserved encoding replaced by the value its field holds. -/
def keepReserved (n : RegNo) (v : Word) (s : State) : Word :=
  let v := fieldRules.foldl (fun (v : Word) r =>
    if r.1 = n ∧ ¬ r.2.2.2 (wfld v r.2.1 r.2.2.1) then wput v r.2.1 r.2.2.1 (s.rf n r.2.1 r.2.2.1) else v) v
  if 0x10040 ≤ n ∧ n < 0x10054 then
    let m := Reg.railMax ((n - 0x10040) / 4)
    if m ≤ 10 * wfld v 15 0 ∧ wfld v 15 0 ≤ m then v else wput v 15 0 (s.rf n 15 0)
  else v

/-- A write by the access codes of a register (R10, R12, R14). Of the status bits it clears, those that an event of the
same cycle set stay 1 (R15); a counter it clears keeps the events of the same cycle (R16; log entry 130). -/
def writePlain (n : RegNo) (d : RegDef) (v : Word) (s : State) : State :=
  if d.counter then (if v = 0 then s.setReg n (BitVec.ofNat 32 (min 0xFFFFFFFF (s.cntNow n))) else s)
  else
    let v := keepReserved n v s
    let m := if s.rf Reg.BOOT_STATUS 27 27 = 1 then d.rw else d.rw ||| d.rwl
    let old := s.reg n
    s.setReg n (((old &&& ~~~m) ||| (v &&& m)) &&& ~~~(v &&& d.w1c &&& ~~~(s.setNow n)))

/-- A program is admitted: links keep the shape of their domain (R318; log entry 61). -/
def anyAdmitted (s : State) : Bool := s.slots.any fun e => e.2.state != .empty

/-- A write that a rule of its table discards whole. -/
def discarded (n : RegNo) (v : Word) (s : State) : Bool :=
  if n = Reg.LL_BAND then
    decide (wfld v 11 0 < 700 ∨ 1700 < wfld v 11 0 ∨ wfld v 27 16 < wfld v 11 0 + 100)
  else if n = Reg.CLK_FB_THRESH then !decide (wfld v 7 0 < wfld v 15 8 ∧ wfld v 15 8 < wfld v 23 16)
  else if n = Reg.LNK_SHAPE then anyAdmitted s || decide (1024 < (wfld v 11 8 + 1) * (wfld v 7 4 + 1) * (wfld v 3 0 + 1))
  else if n = Reg.LNK_RANK ∨ n = Reg.LNK_DTAG then anyAdmitted s
  else if n = Reg.MESH_VC2_MAX then wfld v 15 0 != 0
  else
    match queueOf n with
    | some (f, q, _) => (s.hq f q).active
    | none => false

/-- The host's request follows OS_OP; with OS_AUTO 0 the freeboard request returns to it (R223, R231), but not while it
is held (R379). -/
def opselWritten (v : Word) (s : State) : State :=
  let op := s.rf Reg.CLK_OPSEL 3 0
  let s := if s.rf Reg.CLK_OPSEL 8 8 = 0 ∧ wfld v 3 0 ≤ 8 ∧ s.rf Reg.BOOT_STATUS 24 24 = 0 then setRequest 4 op s else s
  setRequest 0 op s

/-- LOG_RATE: the limit of the selected code; the tokens held are cut to the new burst (R447). -/
def writeRate (v : Word) (s : State) : State :=
  let c := BitVec.ofNat 16 (s.rf Reg.LOG_RSEL 15 0)
  if Ev.severity c = 3 then s
  else
    let x := s.log.lim c
    let x := { x with burst := wfld v 7 0, tokens := min x.tokens (wfld v 7 0), period := if wfld v 31 16 = 0 then x.period else wfld v 31 16 }
    { s with log := s.log.setLim c x }

/-- RAS_TASK_CFG of the selected task (R422). -/
def writeTask (v : Word) (s : State) : State :=
  if wfld v 15 0 = 0 ∨ wfld v 31 16 < wfld v 15 0 then s
  else
    let k := s.rf Reg.RAS_TASK_SEL 2 0
    { s with ras := { s.ras with cfg := tset (taskInit k) s.ras.cfg k v } }

/-- DT_MV of the selected node (R232). -/
def writeDroop (v : Word) (s : State) : State :=
  if 10 ≤ wfld v 7 0 ∧ wfld v 7 0 ≤ 80 then { s with clk := { s.clk with dt := tset 0 s.clk.dt (s.rf Reg.CLK_NODE_SEL 4 0) (wfld v 7 0) } } else s

/-- A doorbell page: from PF0, the pages of VFs take no write (R346). -/
def writeDoorbell (bar n : Nat) (v : Word) (s : State) : State :=
  let f := (n - 0x100000) / 0x1000
  let r := n % 0x1000
  if f ≠ bar ∨ 0x80 ≤ r then s
  else if r % 8 = 0 then sqTail f (r / 8) (wfld v 11 0) s
  else cqHead f (r / 8) (wfld v 11 0) s

/-- A write with the effect of its register. `bar` is the function that writes. A reset by BR_CMD finds in start-up what a
free value says (R381; log entry 88). -/
def writeWord (bar : Nat) (n : RegNo) (v : Word) (s : State) : State :=
  if n % 4 ≠ 0 then s
  else if 0x100000 ≤ n ∧ n < 0x109000 then writeDoorbell bar n v s
  else if 0x81000 ≤ n ∧ n < 0x82000 then
    if s.boot.busy.isSome then s else { s with boot := { s.boot with window := mwrite s.boot.window (n - 0x81000) (leBytes v.toNat 4) } }
  else if n = Reg.LOG_CTRL then (if wfld v 7 0 = 0xC1 then logClear s else s)
  else if n = Reg.LOG_RATE then writeRate v s
  else if n = Reg.RAS_TASK_CFG then writeTask v s
  else if n = Reg.CLK_DROOP_TH then writeDroop v s
  else if n = Reg.CLK_FB_MARGIN then setFmMin (wfld v 15 8) s
  else if n = Reg.CLK_SLUICE_MON then (if v.getLsbD 31 then sluiceRestart s else s)
  else if n = Reg.BOOT_FL_CMD then (if 1 ≤ wfld v 2 0 ∧ wfld v 2 0 ≤ 6 then flashCmd (wfld v 2 0) s else s)
  else if n = Reg.SEC_SVN_CMD then svnWrite v s
  else if n = Reg.BOOT_RESET then
    if wfld v 7 0 = 0xC5 then brCmd true false (Config.bootOutcome s.freeN) { s with freeN := s.freeN + 1 }
    else if wfld v 7 0 = 0x3A then brCmd false false (Config.bootOutcome s.freeN) { s with freeN := s.freeN + 1 }
    else s
  else
    match queueOf n, Reg.info n with
    | some (f, q, 0x10), _ => queueCfg f q v s
    | _, none => s
    | _, some d =>
      if discarded n v s then s
      else
        let s := writePlain n d v s
        if n = Reg.CLK_OPSEL then opselWritten v s
        else if n = Reg.LNK_CTRL then linkControl s
        else if n = Reg.CLK_FB_THRESH then fbReadAll s
        else
          match portRegOf n with
          | some (p, 8) => if v.getLsbD 0 then retrain p s else s
          | _ => s

/-- REGISTER_WRITE (R7, R8). -/
def registerWrite (a : RegAddr) (w : WriteWidth) (v : BitVec 64) (s : State) : State :=
  let n := regAt a
  match w with
  | .narrow => s
  | .word => writeWord a.bar.val n (v.setWidth 32) s
  | .quad => writeWord a.bar.val (n + 4) ((v >>> 32).setWidth 32) (writeWord a.bar.val n (v.setWidth 32) s)

def execRegisterWrite (a : RegAddr) (w : WriteWidth) (v : BitVec 64) (s : State) : Res := .next (s.bar0 (registerWrite a w v))

end Sys2Proof.Machine
end

