-- ==== Sys2Proof/Machine/Mgmt.lean ====
section
/-!
DEFINITION. The management bus: MCTP and PLDM (R464–R469), and the SPDM responder with the measurements (R430–R436).
-/
namespace Sys2Proof.Machine

/-- The answer given last. -/
def answer (r : MgmtResp) (s : State) : State := { s with mgmt := { s.mgmt with resp := some r } }

/-- The bus is served: everything from the end of stage 3 on, only the sensors in FAILED, nothing in RECOVERY (R464). -/
def busUp (s : State) : Bool := decide (4 ≤ s.stage ∧ s.stage ≤ 7)
def sensorsUp (s : State) : Bool := busUp s || s.stage == 9

/-! ### PLDM (R466–R469) -/

/-- Reading of a sensor. -/
def sensorValue (s : State) (id : Nat) : Option Word :=
  if 1 ≤ id ∧ id ≤ 41 then some ((s.temp (id - 1)).setWidth 32)
  else if id = 50 then some (word (s.rf Reg.PWR_IN 15 0))
  else if id = 51 then some (word (s.rf Reg.PWR_IN 31 16))
  else if id = 52 then some (word (s.rf Reg.PWR_AVG 15 0))
  else if 53 ≤ id ∧ id ≤ 57 then some (word (s.rf (Reg.railMon (id - 53)) 15 0))
  else if 58 ≤ id ∧ id ≤ 62 then some (word (s.rf (Reg.railMon (id - 58)) 31 16))
  else if id = 70 then some (word s.stage)
  else if id = 71 then some (word (s.rf Reg.CLK_STATUS 31 28))
  else if id = 72 then some (word s.idle)
  else none

def pldmSensor (id : Nat) (s : State) : State := if sensorsUp s then answer (.sensor id (sensorValue s id)) s else s

def execPldmSensorRead (id : Byte) (s : State) : Res := .next (pldmSensor id.toNat s)

/-- Effecter 1 writes CP_W; a value that R400 reserves fails (R468). -/
def pldmCap (w : Nat) (s : State) : State :=
  if busUp s then
    if 600 ≤ w ∧ w ≤ 2400 then answer (.pldm true) (s.setRf Reg.PWR_CAP 15 0 w) else answer (.pldm false) s
  else s

def execPldmCapEffecter (w : BitVec 16) (s : State) : Res := .next (pldmCap w.toNat s)

/-- Effecter 2: cold reset, warm reset, power off. -/
def pldmReset (st : Nat) (o : BootOutcome) (s : State) : State :=
  if busUp s then
    match st with
    | 1 => answer (.pldm true) (brCmd true true o s)
    | 2 => answer (.pldm true) (brCmd false true o s)
    | 3 => answer (.pldm true) (powerOff .untilFall s)
    | _ => answer (.pldm false) s
  else s

def execPldmResetEffecter (st : Byte) (o : BootOutcome) (s : State) : Res := .next (pldmReset st.toNat o s)

/-- Effecter 3 writes LL_EN. -/
def pldmLevelLoad (st : Nat) (s : State) : State :=
  if busUp s then
    match st with
    | 1 => answer (.pldm true) (s.setRf Reg.LL_CTRL 31 31 0)
    | 2 => answer (.pldm true) (s.setRf Reg.LL_CTRL 31 31 1)
    | _ => answer (.pldm false) s
  else s

def execPldmLevelLoadEffecter (st : Byte) (s : State) : Res := .next (pldmLevelLoad st.toNat s)

/-- The FRU record (R469). -/
def fruRecord (s : State) : FruRecord :=
  ⟨"Ozori Microsystems", "OZE-T1-960W", Config.serial, "B1", s.sec.fwrev, Config.madeOn⟩

def pldmFru (s : State) : State := if busUp s then answer (.fru (fruRecord s)) s else s

def execPldmFruRead (s : State) : Res := .next (pldmFru s)

/-- The event receiver is set; sensor events go to it from now on (R468). -/
def eventReceiver (eid : Byte) (s : State) : State :=
  if busUp s then answer (.pldm true) { s with mgmt := { s.mgmt with receiver := some eid } } else s

def execSetEventReceiver (eid : Byte) (s : State) : Res := .next (eventReceiver eid s)

/-! ### MCTP (R465) -/

/-- A PLDM base message, which is served as the other PLDM types are (R464, R465; log entry 59). -/
def pldmBase (r : MgmtResp) (s : State) : State := if busUp s then answer r s else s

/-- A message of the bus, which works in FAILED too: the endpoint ID is assigned, another control message is answered, a PLDM base
message is answered, and a type that the endpoint does not accept or a packet with a bad PEC is discarded (R464, R465; log entry
59). -/
def mctp (m : MctpMsg) (s : State) : State :=
  if sensorsUp s then
    match m with
    | .setEid e => answer (.mctp 1 e) { s with mgmt := { s.mgmt with eid := e } }
    | .control c => answer (.mctp c s.mgmt.eid) s
    | .otherType _ => s
    | .pldmTypes => pldmBase (.pldmTypes [0, 2, 4]) s
    | .pldmSetTid d => if busUp s then answer (.pldm true) { s with mgmt := { s.mgmt with tid := d } } else s
    | .pldmBase c => pldmBase (if c = 2 then .pldmTid s.mgmt.tid else .pldm (decide (3 ≤ c.toNat ∧ c.toNat ≤ 5))) s
    | .badPec => s
  else s

def execMctpControl (m : MctpMsg) (s : State) : Res := .next (mctp m s)

/-! ### Certificates and measurements (R430–R433) -/

/-- A DER certificate in the one-time-programmable area, if one stands there. -/
def certAt (o : Nat) : Option Bytes :=
  let b (k : Nat) : Nat := (Config.otp (o + k)).toNat
  let n := 4 + b 2 * 256 + b 3
  if b 0 = 0x30 ∧ b 1 = 0x82 ∧ n ≤ 3584 then some ((rangeFrom o n).map fun k => Config.otp k) else none

/-- The slot 0 chain: header, hash of the root certificate, intermediate and device certificate (R436). -/
def certChain : Option Bytes :=
  match certAt 0, certAt 0x1000 with
  | some i, some d => some (leBytes (68 + i.length + d.length) 2 ++ [0, 0] ++ Config.rootHash.toList ++ i ++ d)
  | _, _ => none

/-- The completion entry of a slot's ADMIT is not yet written (R433). -/
def admitPending (s : State) (k : Nat) : Bool := s.host.waiting.any fun x => x.adm && x.slot.toNat == k

/-- Measurement i, 1–20 (R432). -/
def measurement (s : State) (i : Nat) : Bytes :=
  if i ≤ 4 then padTo (tget [] s.sec.meas i) 64
  else
    let k := i - 5
    if (s.slot k).state = .empty ∨ admitPending s k then List.replicate 64 0 else Config.shake256 (s.slot k).image 64

/-! ### SPDM (R434–R436) -/

/-- Lowest bit of a transport's field in SEC_SPDM. -/
def spdmLo : Transport → Nat
  | .doe => 0
  | .mctp => 4

def spdmState (s : State) (t : Transport) : Nat := s.rf Reg.SEC_SPDM (spdmLo t + 3) (spdmLo t)
def setSpdm (t : Transport) (v : Nat) (s : State) : State := s.setRf Reg.SEC_SPDM (spdmLo t + 3) (spdmLo t) v

/-- The responder is reached from the end of stage 3 on (R436): in FAILED over DOE only, if stage 3 was passed, and not in
RECOVERY (R374, R464). -/
def spdmUp (s : State) : Transport → Bool
  | .doe => busUp s || (s.stage == 9 && s.rf Reg.BOOT_STATUS 15 12 != 4)
  | .mctp => busUp s

/-- A request that needs a connection state; a request before it is answered as unexpected (log entry 56). -/
def spdm (t : Transport) (need : Nat) (run : State → State) (s : State) : State :=
  if !spdmUp s t then s else if spdmState s t < need then answer (.error .unexpectedRequest) s else run s

/-- A request that needs the identity key (R430, R436). -/
def withKey (run : State → State) (s : State) : State :=
  if s.rf Reg.SEC_STATUS 29 29 = 1 then answer (.error .unspecified) s
  else if s.rf Reg.SEC_STATUS 30 30 = 0 then answer (.error (.responseNotReady 17)) s
  else run s

/-- Exchanges of a connection since GET_VERSION. -/
def spdmTalk (s : State) (t : Transport) : List SpdmExch := tget [] s.mgmt.talk (spdmLo t)

/-- The exchanges of a connection, replaced. -/
def setTalk (t : Transport) (l : List SpdmExch) (s : State) : State :=
  { s with mgmt := { s.mgmt with talk := tset [] s.mgmt.talk (spdmLo t) l } }

/-- An exchange of a connection is over. -/
def spdmNote (t : Transport) (e : SpdmExch) (s : State) : State := setTalk t (spdmTalk s t ++ [e]) s

/-- A signature over the message of SPDM 1.2 for the exchanges of a connection and this one; its randomness is fresh (R435). -/
def spdmSign (t : Transport) (e : SpdmExch) (s : State) : Bytes × State :=
  (Config.falconSign (Config.falconKey (identitySeed s)).2 (Config.spdmMessage (spdmTalk s t ++ [e])) s.freeN,
   spdmNote t e { s with freeN := s.freeN + 1 })

def spdmVersion (t : Transport) (s : State) : State :=
  spdm t 0 (fun s => answer .version (setTalk t [⟨0x84, [], [0x12]⟩] (setSpdm t 1 s))) s
def execGetVersion (t : Transport) (s : State) : Res := .next (spdmVersion t s)

def spdmCapabilities (t : Transport) (s : State) : State := spdm t 1 (fun s => 
  answer (.capabilities [.cert, .chal, .measSigned] 14 4096 4096) (spdmNote t ⟨0xE1, [], []⟩ (setSpdm t 2 s))) s
def execGetCapabilities (t : Transport) (s : State) : Res := .next (spdmCapabilities t s)

/-- The two extended algorithm structures of R435. -/
def spdmAsym : Word := 0x4F010004
def spdmHash : Word := 0x4F020004

def spdmNegotiate (t : Transport) (offers : List Word) (s : State) : State :=
  spdm t 2 (fun s =>
    if offers.contains spdmAsym ∧ offers.contains spdmHash then
      answer (.algorithms spdmAsym spdmHash .dmtf .rawBitStream)
        (spdmNote t ⟨0xE3, offers.flatMap fun w => leBytes w.toNat 4, leBytes spdmAsym.toNat 4 ++ leBytes spdmHash.toNat 4⟩ (setSpdm t 3 s))
    else answer (.error .negotiationFail) s) s
def execNegotiateAlgorithms (t : Transport) (offers : List Word) (s : State) : Res := .next (spdmNegotiate t offers s)

def spdmDigests (t : Transport) (s : State) : State :=
  spdm t 3 (fun s =>
    match certChain with
    | some c => answer (.digests (Config.shake256 c 64)) (spdmNote t ⟨0x81, [], Config.shake256 c 64⟩ s)
    | none => answer (.error .unspecified) s) s
def execGetDigests (t : Transport) (s : State) : Res := .next (spdmDigests t s)

/-- A portion of the chain of slot 0: what a message of 4,096 bytes holds beside its header (log entry 56). -/
def spdmCertificate (t : Transport) (slot : Byte) (off len : Nat) (s : State) : State :=
  spdm t 3 (fun s =>
    match certChain with
    | none => answer (.error .unspecified) s
    | some c =>
      if slot = 0 ∧ off < c.length then
        let part := (c.drop off).take (min len 4088)
        answer (.certificate part (c.length - off - part.length)) (spdmNote t ⟨0x82, leBytes off 2 ++ leBytes len 2, part⟩ s)
      else answer (.error .invalidRequest) s) s
def execGetCertificate (t : Transport) (slot : Byte) (off len : BitVec 16) (s : State) : Res :=
  .next (spdmCertificate t slot off.toNat len.toNat s)

def spdmChallenge (t : Transport) (nonce : Bytes) (s : State) : State :=
  spdm t 3 (withKey fun s =>
    let f := freeBytes 32 s
    let g := spdmSign t ⟨0x83, nonce, f.1⟩ f.2
    answer (.challengeAuth f.1 g.1) (setSpdm t 4 g.2)) s
def execChallenge (t : Transport) (nonce : List Byte) (s : State) : Res := .next (spdmChallenge t nonce s)

/-- GET_MEASUREMENTS: one block, all 20, or none for index 0; with or without a signature. -/
def spdmMeasure (t : Transport) (i : Nat) (signed : Bool) (nonce : Bytes) (s : State) : State :=
  spdm t 3 (fun s =>
    let l := if i = 0xFF then rangeFrom 1 20 else if i = 0 then [] else [i]
    if 20 < i ∧ i ≠ 0xFF then answer (.error .invalidRequest) s
    else
      let blocks := l.map fun k => (k, measurement s k)
      let exch (own : Bytes) : SpdmExch := ⟨0xE0, leBytes i 1 ++ leBytes (b2n signed) 1 ++ nonce, (blocks.flatMap fun b => b.2) ++ own⟩
      if signed then
        withKey (fun s =>
          let f := freeBytes 32 s
          let g := spdmSign t (exch f.1) f.2
          answer (.measurements blocks f.1 (some g.1)) g.2) s
      else let f := freeBytes 32 s; answer (.measurements blocks f.1 none) (spdmNote t (exch f.1) f.2)) s
def execGetMeasurements (t : Transport) (i : Byte) (signed : Bool) (nonce : List Byte) (s : State) : Res :=
  .next (spdmMeasure t i.toNat signed nonce s)

def spdmUnsupported (t : Transport) (s : State) : State := spdm t 0 (answer (.error .unsupportedRequest)) s
def execSpdmUnsupported (t : Transport) (_ : Byte) (s : State) : Res := .next (spdmUnsupported t s)

end Sys2Proof.Machine
end

