-- ==== Sys2Proof/Machine/Dispatch.lean ====
section
/-!
DEFINITION. The meaning of a command, arm by arm: each command of the table has one meaning, found by its name.
-/
namespace Sys2Proof.Machine

def exec (i : Instr) (s : State) : Host.Outcome State Fault Refusal :=
  match i with
  | .bundleIssue t => Sys2Proof.Machine.execBundleIssue t s
  | .br u target => Sys2Proof.Machine.execBr u target s
  | .loopI u k endA count => Sys2Proof.Machine.execLoopI u k endA count s
  | .loopR u k endA ra => Sys2Proof.Machine.execLoopR u k endA ra s
  | .delay u n => Sys2Proof.Machine.execDelay u n s
  | .delayExpiry t => Sys2Proof.Machine.execDelayExpiry t s
  | .waitQ u rd tag => Sys2Proof.Machine.execWaitQ u rd tag s
  | .waitQall u => Sys2Proof.Machine.execWaitQall u s
  | .waitCyc u rd ra => Sys2Proof.Machine.execWaitCyc u rd ra s
  | .waitComplete t => Sys2Proof.Machine.execWaitComplete t s
  | .tide t span => Sys2Proof.Machine.execTide t span s
  | .endProg t => Sys2Proof.Machine.execEndProg t s
  | .add u rd ra rb => Sys2Proof.Machine.execAdd u rd ra rb s
  | .sub u rd ra rb => Sys2Proof.Machine.execSub u rd ra rb s
  | .andR u rd ra rb => Sys2Proof.Machine.execAndR u rd ra rb s
  | .orR u rd ra rb => Sys2Proof.Machine.execOrR u rd ra rb s
  | .xorR u rd ra rb => Sys2Proof.Machine.execXorR u rd ra rb s
  | .sll u rd ra rb => Sys2Proof.Machine.execSll u rd ra rb s
  | .srl u rd ra rb => Sys2Proof.Machine.execSrl u rd ra rb s
  | .sra u rd ra rb => Sys2Proof.Machine.execSra u rd ra rb s
  | .slt u rd ra rb => Sys2Proof.Machine.execSlt u rd ra rb s
  | .sltu u rd ra rb => Sys2Proof.Machine.execSltu u rd ra rb s
  | .mul u rd ra rb => Sys2Proof.Machine.execMul u rd ra rb s
  | .minS u rd ra rb => Sys2Proof.Machine.execMinS u rd ra rb s
  | .maxS u rd ra rb => Sys2Proof.Machine.execMaxS u rd ra rb s
  | .addi u rd ra imm => Sys2Proof.Machine.execAddi u rd ra imm s
  | .andi u rd ra imm => Sys2Proof.Machine.execAndi u rd ra imm s
  | .ori u rd ra imm => Sys2Proof.Machine.execOri u rd ra imm s
  | .xori u rd ra imm => Sys2Proof.Machine.execXori u rd ra imm s
  | .slli u rd ra sh => Sys2Proof.Machine.execSlli u rd ra sh s
  | .srli u rd ra sh => Sys2Proof.Machine.execSrli u rd ra sh s
  | .srai u rd ra sh => Sys2Proof.Machine.execSrai u rd ra sh s
  | .slti u rd ra imm => Sys2Proof.Machine.execSlti u rd ra imm s
  | .ldi u rd imm => Sys2Proof.Machine.execLdi u rd imm s
  | .ldih u rd imm => Sys2Proof.Machine.execLdih u rd imm s
  | .ldW u rd ra imm => Sys2Proof.Machine.execLdW u rd ra imm s
  | .stW u rd ra imm => Sys2Proof.Machine.execStW u rd ra imm s
  | .pcmp u pd ra rb c => Sys2Proof.Machine.execPcmp u pd ra rb c s
  | .plog u pd pa pb f => Sys2Proof.Machine.execPlog u pd pa pb f s
  | .pset u pd v => Sys2Proof.Machine.execPset u pd v s
  | .flagsRd u rd => Sys2Proof.Machine.execFlagsRd u rd s
  | .tidRd u rd => Sys2Proof.Machine.execTidRd u rd s
  | .spanRd u rd => Sys2Proof.Machine.execSpanRd u rd s
  | .lcRd u rd k => Sys2Proof.Machine.execLcRd u rd k s
  | .tsBank u target ra tag => Sys2Proof.Machine.execTsBank u target ra tag s
  | .bankGateEntry t bank => Sys2Proof.Machine.execBankGateEntry t bank s
  | .tsBankComplete t tag => Sys2Proof.Machine.execTsBankComplete t tag s
  | .mmStream u arr rl rls rr rrs set cont => Sys2Proof.Machine.execMmStream u arr rl rls rr rrs set cont s
  | .streamComplete t arr => Sys2Proof.Machine.execStreamComplete t arr s
  | .mmCfg u arr ra => Sys2Proof.Machine.execMmCfg u arr ra s
  | .mmPwr u arr off => Sys2Proof.Machine.execMmPwr u arr off s
  | .arrayPowerExitDone t arr => Sys2Proof.Machine.execArrayPowerExitDone t arr s
  | .arrayClockGate t unit => Sys2Proof.Machine.execArrayClockGate t unit s
  | .feltInject u lmask revs ra rs sc sw => Sys2Proof.Machine.execFeltInject u lmask revs ra rs sc sw s
  | .feltRemove u lmask wr ra => Sys2Proof.Machine.execFeltRemove u lmask wr ra s
  | .feltCopy u lmask ra => Sys2Proof.Machine.execFeltCopy u lmask ra s
  | .feltWordArrival t lane => Sys2Proof.Machine.execFeltWordArrival t lane s
  | .feltAutoRemove t lane => Sys2Proof.Machine.execFeltAutoRemove t lane s
  | .couchDrain u arr set epi re rs ru => Sys2Proof.Machine.execCouchDrain u arr set epi re rs ru s
  | .couchSet u epi ra => Sys2Proof.Machine.execCouchSet u epi ra s
  | .vadd u vd va vb pk => Sys2Proof.Machine.execVadd u vd va vb pk s
  | .vsub u vd va vb pk => Sys2Proof.Machine.execVsub u vd va vb pk s
  | .vmul u vd va vb pk => Sys2Proof.Machine.execVmul u vd va vb pk s
  | .vfma u vd va vb pk => Sys2Proof.Machine.execVfma u vd va vb pk s
  | .vfnma u vd va vb pk => Sys2Proof.Machine.execVfnma u vd va vb pk s
  | .vmin u vd va vb pk => Sys2Proof.Machine.execVmin u vd va vb pk s
  | .vmax u vd va vb pk => Sys2Proof.Machine.execVmax u vd va vb pk s
  | .vminn u vd va vb pk => Sys2Proof.Machine.execVminn u vd va vb pk s
  | .vmaxn u vd va vb pk => Sys2Proof.Machine.execVmaxn u vd va vb pk s
  | .vabs u vd va => Sys2Proof.Machine.execVabs u vd va s
  | .vneg u vd va => Sys2Proof.Machine.execVneg u vd va s
  | .vcmp u vd va vb c => Sys2Proof.Machine.execVcmp u vd va vb c s
  | .vsel u vd va vb => Sys2Proof.Machine.execVsel u vd va vb s
  | .vdiv u vd va vb => Sys2Proof.Machine.execVdiv u vd va vb s
  | .vsqrt u vd va => Sys2Proof.Machine.execVsqrt u vd va s
  | .vtr u vd va f => Sys2Proof.Machine.execVtr u vd va f s
  | .vred u vd va f => Sys2Proof.Machine.execVred u vd va f s
  | .vcvt u vd va fmt wid rm => Sys2Proof.Machine.execVcvt u vd va fmt wid rm s
  | .vcvti u vd va wid rm => Sys2Proof.Machine.execVcvti u vd va wid rm s
  | .viadd u vd va vb => Sys2Proof.Machine.execViadd u vd va vb s
  | .visub u vd va vb => Sys2Proof.Machine.execVisub u vd va vb s
  | .viand u vd va vb => Sys2Proof.Machine.execViand u vd va vb s
  | .vior u vd va vb => Sys2Proof.Machine.execVior u vd va vb s
  | .vixor u vd va vb => Sys2Proof.Machine.execVixor u vd va vb s
  | .visll u vd va vb => Sys2Proof.Machine.execVisll u vd va vb s
  | .visrl u vd va vb => Sys2Proof.Machine.execVisrl u vd va vb s
  | .vld u vd ra sz => Sys2Proof.Machine.execVld u vd ra sz s
  | .vst u va ra sz => Sys2Proof.Machine.execVst u va ra sz s
  | .vbc u vd ra => Sys2Proof.Machine.execVbc u vd ra s
  | .vidx u vd => Sys2Proof.Machine.execVidx u vd s
  | .vmvg u rd va lane => Sys2Proof.Machine.execVmvg u rd va lane s
  | .vSr u rt rb rc => Sys2Proof.Machine.execVSr u rt rb rc s
  | .vFelt u lane va rs scf => Sys2Proof.Machine.execVFelt u lane va rs scf s
  | .vLp u va ra rb => Sys2Proof.Machine.execVLp u va ra rb s
  | .meshSend u rt rs rd len => Sys2Proof.Machine.execMeshSend u rt rs rd len s
  | .rvRead u lev ro ra len => Sys2Proof.Machine.execRvRead u lev ro ra len s
  | .rvWrite u lev ro ra len => Sys2Proof.Machine.execRvWrite u lev ro ra len s
  | .qPush u q ra => Sys2Proof.Machine.execQPush u q ra s
  | .pulpStart u ra => Sys2Proof.Machine.execPulpStart u ra s
  | .wvPin u q re rv tag => Sys2Proof.Machine.execWvPin u q re rv tag s
  | .wvPinGrant t q tag => Sys2Proof.Machine.execWvPinGrant t q tag s
  | .wvUnpin u q re rv tag => Sys2Proof.Machine.execWvUnpin u q re rv tag s
  | .wvClaim u q re tag => Sys2Proof.Machine.execWvClaim u q re tag s
  | .wvClaimGrant t q tag => Sys2Proof.Machine.execWvClaimGrant t q tag s
  | .wvPublish u q re tag => Sys2Proof.Machine.execWvPublish u q re tag s
  | .chainRun u chain => Sys2Proof.Machine.execChainRun u chain s
  | .chainStageIssue t => Sys2Proof.Machine.execChainStageIssue t s
  | .meshFlitArrival t => Sys2Proof.Machine.execMeshFlitArrival t s
  | .vc2FlitForward t inp vc3 => Sys2Proof.Machine.execVc2FlitForward t inp vc3 s
  | .depositWrite t => Sys2Proof.Machine.execDepositWrite t s
  | .rctxAdd t ctx => Sys2Proof.Machine.execRctxAdd t ctx s
  | .queueTranslate t q => Sys2Proof.Machine.execQueueTranslate t q s
  | .queueSheetReturn t q tag sheet => Sys2Proof.Machine.execQueueSheetReturn t q tag sheet s
  | .hbmSheetCommit t q tag sheet => Sys2Proof.Machine.execHbmSheetCommit t q tag sheet s
  | .deadlineExpiry t q => Sys2Proof.Machine.execDeadlineExpiry t q s
  | .heldReadRelease t q tag sheet => Sys2Proof.Machine.execHeldReadRelease t q tag sheet s
  | .hbmRefreshSwitch stack hot => Sys2Proof.Machine.execHbmRefreshSwitch stack hot s
  | .preemptSaveStart stopUs => Sys2Proof.Machine.execPreemptSaveStart stopUs s
  | .preemptSaveDone saveUs => Sys2Proof.Machine.execPreemptSaveDone saveUs s
  | .restoreDone => Sys2Proof.Machine.execRestoreDone s
  | .pulpItemDone t => Sys2Proof.Machine.execPulpItemDone t s
  | .pulpStealRequest t => Sys2Proof.Machine.execPulpStealRequest t s
  | .pulpStealReply t => Sys2Proof.Machine.execPulpStealReply t s
  | .pulpTableRequest t => Sys2Proof.Machine.execPulpTableRequest t s
  | .pulpPhaseComplete t => Sys2Proof.Machine.execPulpPhaseComplete t s
  | .droopDetect node => Sys2Proof.Machine.execDroopDetect node s
  | .freeboardCrossing node mon margin => Sys2Proof.Machine.execFreeboardCrossing node mon margin s
  | .freeboardRaise => Sys2Proof.Machine.execFreeboardRaise s
  | .pllLockDone lockUs => Sys2Proof.Machine.execPllLockDone lockUs s
  | .spanBoundary => Sys2Proof.Machine.execSpanBoundary s
  | .powerCapTick => Sys2Proof.Machine.execPowerCapTick s
  | .thermalTick => Sys2Proof.Machine.execThermalTick s
  | .stopTimeout => Sys2Proof.Machine.execStopTimeout s
  | .linkDetectRetry p => Sys2Proof.Machine.execLinkDetectRetry p s
  | .trainingFrame p lane ctrl inverted good => Sys2Proof.Machine.execTrainingFrame p lane ctrl inverted good s
  | .linkTrainTimeout p => Sys2Proof.Machine.execLinkTrainTimeout p s
  | .linkDownIdleExpiry p => Sys2Proof.Machine.execLinkDownIdleExpiry p s
  | .linkLossOfSignal p lane => Sys2Proof.Machine.execLinkLossOfSignal p lane s
  | .linkNull p f fec => Sys2Proof.Machine.execLinkNull p f fec s
  | .linkWrite p f fec => Sys2Proof.Machine.execLinkWrite p f fec s
  | .linkAccWrite p f fec => Sys2Proof.Machine.execLinkAccWrite p f fec s
  | .linkRead p f fec => Sys2Proof.Machine.execLinkRead p f fec s
  | .linkReadResp p f fec => Sys2Proof.Machine.execLinkReadResp p f fec s
  | .linkTide p f fec => Sys2Proof.Machine.execLinkTide p f fec s
  | .linkDoorbell p f fec => Sys2Proof.Machine.execLinkDoorbell p f fec s
  | .linkMgmtIdent p f fec => Sys2Proof.Machine.execLinkMgmtIdent p f fec s
  | .linkMgmtFailover p f fec => Sys2Proof.Machine.execLinkMgmtFailover p f fec s
  | .linkReservedFlit p f fec => Sys2Proof.Machine.execLinkReservedFlit p f fec s
  | .linkReplayTimeout p => Sys2Proof.Machine.execLinkReplayTimeout p s
  | .linkFlitSend p => Sys2Proof.Machine.execLinkFlitSend p s
  | .tideUpSend => Sys2Proof.Machine.execTideUpSend s
  | .tideRecountExpiry => Sys2Proof.Machine.execTideRecountExpiry s
  | .tideTimeout => Sys2Proof.Machine.execTideTimeout s
  | .reamScatterSend slot ream => Sys2Proof.Machine.execReamScatterSend slot ream s
  | .reamStagedAdd slot ream slice waitUs => Sys2Proof.Machine.execReamStagedAdd slot ream slice waitUs s
  | .reamGatherSend slot ream => Sys2Proof.Machine.execReamGatherSend slot ream s
  | .reamLate slot ream slice => Sys2Proof.Machine.execReamLate slot ream slice s
  | .reamTimeout slot ream slice => Sys2Proof.Machine.execReamTimeout slot ream slice s
  | .doorbellSqTail fn q v => Sys2Proof.Machine.execDoorbellSqTail fn q v s
  | .doorbellCqHead fn q v => Sys2Proof.Machine.execDoorbellCqHead fn q v s
  | .queueEnable fn q v => Sys2Proof.Machine.execQueueEnable fn q v s
  | .submissionFetch fn q => Sys2Proof.Machine.execSubmissionFetch fn q s
  | .completionWrite fn q => Sys2Proof.Machine.execCompletionWrite fn q s
  | .admitCmd c => Sys2Proof.Machine.execAdmit c s
  | .start c => Sys2Proof.Machine.execStart c s
  | .preempt c => Sys2Proof.Machine.execPreempt c s
  | .resume c => Sys2Proof.Machine.execResume c s
  | .release c => Sys2Proof.Machine.execRelease c s
  | .copyIn c => Sys2Proof.Machine.execCopyIn c s
  | .copyOut c => Sys2Proof.Machine.execCopyOut c s
  | .copyOutDeferred c => Sys2Proof.Machine.execCopyOutDeferred c s
  | .abort c => Sys2Proof.Machine.execAbort c s
  | .quota c => Sys2Proof.Machine.execQuota c s
  | .reservedCommand c => Sys2Proof.Machine.execReservedCommand c s
  | .bar4Access write off len data => Sys2Proof.Machine.execBar4Access write off len data s
  | .flr fn => Sys2Proof.Machine.execFlr fn s
  | .surpriseRemoval => Sys2Proof.Machine.execSurpriseRemoval s
  | .perstReset => Sys2Proof.Machine.execPerstReset s
  | .idleEntry => Sys2Proof.Machine.execIdleEntry s
  | .powerGood o => Sys2Proof.Machine.execPowerGood o s
  | .identityKeyReady => Sys2Proof.Machine.execIdentityKeyReady s
  | .coldReset byPldm o => Sys2Proof.Machine.execColdReset byPldm o s
  | .warmReset byPldm o => Sys2Proof.Machine.execWarmReset byPldm o s
  | .flashRead => Sys2Proof.Machine.execFlashRead s
  | .flashErase => Sys2Proof.Machine.execFlashErase s
  | .flashProgram => Sys2Proof.Machine.execFlashProgram s
  | .setPref => Sys2Proof.Machine.execSetPref s
  | .calRead => Sys2Proof.Machine.execCalRead s
  | .calCommit => Sys2Proof.Machine.execCalCommit s
  | .flashCmdDone devErr o => Sys2Proof.Machine.execFlashCmdDone devErr o s
  | .svnRaise v => Sys2Proof.Machine.execSvnRaise v s
  | .inputLockout => Sys2Proof.Machine.execInputLockout s
  | .railLimit rail => Sys2Proof.Machine.execRailLimit rail s
  | .railLimitShutdown rail => Sys2Proof.Machine.execRailLimitShutdown rail s
  | .governorTick m => Sys2Proof.Machine.execGovernorTick m s
  | .thermalTrip sensor => Sys2Proof.Machine.execThermalTrip sensor s
  | .thermalShutdown sensor => Sys2Proof.Machine.execThermalShutdown sensor s
  | .sensorUpdate raw => Sys2Proof.Machine.execSensorUpdate raw s
  | .scrubDeferred task => Sys2Proof.Machine.execScrubDeferred task s
  | .logTokenTick code => Sys2Proof.Machine.execLogTokenTick code s
  | .logClear => Sys2Proof.Machine.execLogClear s
  | .logCleared => Sys2Proof.Machine.execLogCleared s
  | .pairLowRead a w => Sys2Proof.Machine.execPairLowRead a w s
  | .pairHighRead a w => Sys2Proof.Machine.execPairHighRead a w s
  | .xfInfoRead w => Sys2Proof.Machine.execXfInfoRead w s
  | .slipInfoRead w => Sys2Proof.Machine.execSlipInfoRead w s
  | .firstFatalRead w => Sys2Proof.Machine.execFirstFatalRead w s
  | .sluiceMonRestart => Sys2Proof.Machine.execSluiceMonRestart s
  | .fbMarginRestart => Sys2Proof.Machine.execFbMarginRestart s
  | .portRetrain p => Sys2Proof.Machine.execPortRetrain p s
  | .registerWrite a w v => Sys2Proof.Machine.execRegisterWrite a w v s
  | .enRise => Sys2Proof.Machine.execEnRise s
  | .enFall => Sys2Proof.Machine.execEnFall s
  | .capacitanceCharged => Sys2Proof.Machine.execCapacitanceCharged s
  | .testPortAccess port => Sys2Proof.Machine.execTestPortAccess port s
  | .pldmSensorRead id => Sys2Proof.Machine.execPldmSensorRead id s
  | .pldmCapEffecter w => Sys2Proof.Machine.execPldmCapEffecter w s
  | .pldmResetEffecter st o => Sys2Proof.Machine.execPldmResetEffecter st o s
  | .pldmLevelLoadEffecter st => Sys2Proof.Machine.execPldmLevelLoadEffecter st s
  | .pldmFruRead => Sys2Proof.Machine.execPldmFruRead s
  | .getVersion tr => Sys2Proof.Machine.execGetVersion tr s
  | .getCapabilities tr => Sys2Proof.Machine.execGetCapabilities tr s
  | .negotiateAlgorithms tr offers => Sys2Proof.Machine.execNegotiateAlgorithms tr offers s
  | .getDigests tr => Sys2Proof.Machine.execGetDigests tr s
  | .getCertificate tr slot off len => Sys2Proof.Machine.execGetCertificate tr slot off len s
  | .challenge tr nonce => Sys2Proof.Machine.execChallenge tr nonce s
  | .getMeasurements tr index signed nonce => Sys2Proof.Machine.execGetMeasurements tr index signed nonce s
  | .spdmUnsupported tr code => Sys2Proof.Machine.execSpdmUnsupported tr code s
  | .freeboardRise node mon margin => Sys2Proof.Machine.execFreeboardRise node mon margin s
  | .inputLockoutEnd o => Sys2Proof.Machine.execInputLockoutEnd o s
  | .enHoldoffExpiry => Sys2Proof.Machine.execEnHoldoffExpiry s
  | .backgroundTaskPass task port => Sys2Proof.Machine.execBackgroundTaskPass task port s
  | .firmwareSramError => Sys2Proof.Machine.execFirmwareSramError s
  | .svnBurnDone => Sys2Proof.Machine.execSvnBurnDone s
  | .d3Transition enter => Sys2Proof.Machine.execD3Transition enter s
  | .vfEnableClear => Sys2Proof.Machine.execVfEnableClear s
  | .mctpControl msg => Sys2Proof.Machine.execMctpControl msg s
  | .setEventReceiver eid => Sys2Proof.Machine.execSetEventReceiver eid s

end Sys2Proof.Machine
end

