-- ==== Sys2Proof/Machine/Pins.lean ====
section
/-!
DEFINITION. The contacts of the module: what its management outputs show (R457, R460), its bus address (R464), and the signals
of the high-speed connectors (R458).
-/
namespace Sys2Proof.Machine

/-- A contact is driven low, or released. -/
inductive PinLevel where
  | low | released
  deriving DecidableEq, Repr

/-- PRSNT_N is tied to ground, and SMB_ALERT_N is always released by stepping B1 (R457). -/
def prsntN : PinLevel := .low
def smbAlertN : PinLevel := .released

/-- PWRGD is released while every rail is in regulation: from POWER_GOOD until the rails are removed (R457, R460). -/
def pwrgd (s : State) : PinLevel := if s.md.supply = .on ∧ s.boot.started then .released else .low

/-- The module's address on the management bus (R464). -/
def smbAddress : BitVec 7 := 0x40 + Config.slotId.setWidth 7

/-- A differential pair of J2 or J3 (R458). -/
inductive PairSignal where
  | link (port lane : Nat) (receive : Bool)
  | pcie (lane : Nat) (receive : Bool)
  | pcieClock
  | reserved
  deriving DecidableEq, Repr

/-- The signal of pair position n of J2, or of J3 (R458). -/
def pairSignal (j3 : Bool) (n : Fin 112) : PairSignal :=
  if n.val < 96 then .link (n.val / 16 + if j3 then 6 else 0) (n.val % 16 / 2) (n.val % 2 == 1)
  else if j3 then .reserved
  else if n.val < 104 then .pcie (n.val % 4) (decide (100 ≤ n.val))
  else if n.val = 104 then .pcieClock
  else .reserved

end Sys2Proof.Machine
end

