-- ==== Sys2Proof/Machine/Tick.lean ====
section
/-!
DEFINITION. One cycle of the grid (R4, R43): what the routers, the belt, the chains and the feeders do in the current
cycle, the tile-store accesses it holds (R40), and the effects that come into force in the next one. The block runs a
cycle when no command waits (log entry 11).
-/
namespace Sys2Proof.Machine

/-! ### Units that act in the current cycle -/

/-- Chain stages that are due (R254). -/
def tickChains (s : State) : State :=
  s.tiles.foldl (fun s e => if e.2.chains.isEmpty then s else chainStage (Fin.ofNat 2304 e.1) s) s

/-- Reduction contexts add their head flits, and every router moves the scheduled flits that are at it (R180–R184). -/
def tickMesh (s : State) : State :=
  let s := s.mesh.rctx.foldl (fun s e => ctxAdd (e.1 / 8) (e.1 % 8) s) s
  ((s.mesh.flits.filter fun f => f.cyc ≤ s.cycle).map (·.at_)).eraseDups.foldl (fun s r => routerCycle r s) s

/-- Something is to be done on a lane at a tile in this cycle (R89). -/
def laneBusy (s : State) (t : Nat) (lane : Fin 4) : Bool :=
  let f := s.felt
  (f.inj.any fun k => k.tile == t && k.lane == lane && k.cyc == s.cycle) ||
  (f.takes.any fun k => k.tile == t && k.lane == lane && k.cyc == s.cycle) ||
  (f.removals.any fun k => k.tile == t && k.lane == lane && k.cyc == s.cycle) ||
  f.gathers.any (gatherDue t lane s) || anyTap (s.tile t) lane.val s.cycle

/-- Tiles at which the belt may have something to do. -/
def feltTiles (s : State) : List Nat :=
  let f := s.felt
  (f.inj.map (·.tile) ++ f.takes.map (·.tile) ++ f.removals.map (·.tile) ++ f.gathers.map (·.tile) ++
    ((s.tiles.filter fun e => !e.2.arr0.streams.isEmpty || !e.2.arr1.streams.isEmpty).map (·.1))).eraseDups

def tickFelt (s : State) : State :=
  (feltTiles s).foldl (fun s t =>
    ([0, 1, 2, 3] : List (Fin 4)).foldl (fun s (l : Fin 4) => if laneBusy s t l then routerLane t l s else s) s) s

/-- A gather-end row whose four lanes have passed goes to the tile store, to be written in the next cycle, or to the
local port (R97). -/
def gatherOut (g : FeltGather) (s : State) : State :=
  if g.ending then
    let b := fromWords (([0, 1, 2, 3] : List Nat).flatMap fun l => tget [] g.got l)
    match g.dest with
    | some d => sendRow g.tile 0 (s.cycle + 2) d g.addr b none s
    | none => s.accessAt (s.cycle + 1) (.write g.tile rkCouch 0 [(g.addr, b)] prCouch 0)
  else s

def tickGathers (s : State) : State :=
  let due := s.felt.gathers.filter fun g => g.cyc ≤ s.cycle
  let s := { s with felt := { s.felt with gathers := s.felt.gathers.filter fun g => !(g.cyc ≤ s.cycle) } }
  due.foldl (fun s g => gatherOut g s) s

/-- The reads of every stream in this cycle (R273, R274). -/
def feederReads (s : State) : List Access :=
  s.tiles.flatMap fun e =>
    (e.2.arr0.streams.flatMap fun st => streamReads e.1 0 st s.cycle) ++
      e.2.arr1.streams.flatMap fun st => streamReads e.1 1 st s.cycle

/-! ### Tile-store accesses of the cycle (R40) -/

/-- The scale bytes read for words that are to be injected (R278). -/
def scaleInj (t : Nat) (lanes : List (Fin 4)) (due : Nat) (b : Bytes) (s : State) : State :=
  { s with felt := { s.felt with inj := s.felt.inj.map fun k =>
      if k.tile = t ∧ k.cyc = due ∧ k.prio = 2 ∧ k.lane ∈ lanes then { k with scale := b.getD (lanes.idxOf k.lane) 0 } else k } }

/-- The entry of an operand buffer that a word or group of a feeder fills (R34, R408). -/
def bufFill (t : Nat) (arr : Fin 2) (uid : Nat) (right : Bool) (w : Nat) (b : Bytes) (s : State) : State :=
  match ((s.tile t).arr arr).streams.find? fun st => st.uid == uid with
  | some st =>
    let tr := if right then acRT st.cfg else acLT st.cfg
    s.eccFresh placeBuf (bufKey t arr right (if tr then w % 32 * 8 else w % 256)) (b.length / 8)
  | none => s

/-- Data of a read reaches its sink; a is the first address read. -/
def sinkData (t a : Nat) (k : Sink) (b : Bytes) (s : State) : State :=
  match k with
  | .greg rd due => s.regW t slotS due (.gset t rd (leWord b))
  | .vreg vd due => vecWrite t vd 0x28 due (toWords (padTo b 128)) s
  | .word arr uid right w => (bufFill t arr uid right w b s).modTile t fun x => x.modStream arr uid fun st => st.putWord right w b
  | .scale arr uid right q => s.modTile t fun x => x.modStream arr uid fun st => st.putScale right q b
  | .felt lane revs kind first sw slice due =>
    { s with felt := { s.felt with inj := s.felt.inj ++
      [⟨t, lane, due, 2, revs, kind, first, sw, slice.getD (crc4 b), 0x7F, b, (t * 768 + a / 256, a / 32 % 8)⟩] } }
  | .feltScale lanes due => scaleInj t lanes due b s
  | .drainU uid i => s.modTile t fun x => x.modDrain uid fun d => { d with us := tput d.us i b }
  | .drainUs uid i => s.modTile t fun x => x.modDrain uid fun d => { d with uss := tput d.uss i (b.getD 0 0) }
  | .couchSet epi part issue addr => couchSetPart t epi part issue addr b s
  | .qDesc q issue => queueAccept t q.val issue b s
  | .pulpDesc part issue => if part = 0 then pulpHalf0 t issue b s else pulpHalf1 t issue b s
  | .send dest line half leaveAt => sendHalf t a dest line half leaveAt b s
  | .rvw lev off half id leaveAt => rvHalf t a lev off half id leaveAt b s

/-- One access of the cycle, after those that come before it; the banks it takes are kept by tile. -/
def serveOne (s : State) (a : Access) : State :=
  match a with
  | .read t rank _ segs sink =>
    let r := serveRead t rank segs (s.usedBanks t) (pulpTouch t segs s)
    sinkData t (segs.headD (0, 0)).1 sink r.2.2 (r.2.1.setUsed t r.1)
  | .write t rank _ segs prod chk since =>
    let r := serveWrite t rank segs prod chk since (s.usedBanks t) (pulpTouch t (segs.map fun e => (e.1, e.2.length)) s)
    r.2.setUsed t r.1

/-- The tile-store accesses of the current cycle, in the order of R40, and the reads of source sheets in what they leave
(R39). The bank-cycles then left over serve the unscheduled accesses until the next cycle is over (log entry 138). -/
def tickStore (s : State) : State :=
  let l := orderAccesses (s.mem.acc ++ feederReads s)
  tickSources (l.foldl serveOne { s with mem := { s.mem with acc := [], used := [] } })

/-! ### Words that reach a shut seam (R229) -/

/-- Where the belt leaves a polder: its last tile and the polder that follows on the loop (R83–R85). -/
def feltExit (mode p : Nat) : Nat × Nat :=
  let path := polderPath mode p
  let k := loopTiles mode / 144
  let next := ((List.range 16).find? fun r => (polderPath mode r).1 == path.1 && (polderPath mode r).2.1 == (path.2.1 + 1) % k).getD p
  let base := p / 4 * 12 * 48 + p % 4 * 12
  (((List.range 144).map fun n => base + n / 12 * 48 + n % 12).find? fun t => (feltPos mode t).2 == 144 * path.2.1 + 143).getD base |> (·, next)

/-- The port by which the belt leaves a polder for the next one. -/
def seamPort (p q : Nat) : Nat :=
  if q / 4 < p / 4 then 1 else if p / 4 < q / 4 then 3 else if p % 4 < q % 4 then 2 else 4

/-- The words that leave a polder by a shut seam after this cycle are discarded at the writer side. -/
def feltSeam (p : Nat) (s : State) : State :=
  let e := feltExit s.feltMode p
  if 2 ≤ s.polder p || 2 ≤ s.polder e.2 then
    ([0, 1, 2, 3] : List (Fin 4)).foldl (fun s (l : Fin 4) =>
      if (s.feltAt e.1 l).isSome then ((s.feltDrop e.1 l).feltDiscard e.1).shutDrop e.1 (seamPort p e.2) 1 else s) s
  else s

def tickSeams (s : State) : State :=
  if s.felt.words.isEmpty || s.feltMode == 3 then s else (List.range 16).foldl (fun s p => feltSeam p s) s

/-! ### The next cycle -/

/-- Every condition of R251 but the equal counts holds. -/
def waitsForCounts (s : State) : Bool :=
  match s.running with
  | none => false
  | some k =>
    (s.slot k).state == .running && (s.slot k).coded.all (tileArrived s) && localReady k (settleStreams s) && reamsSettled s k &&
      (decide ((s.slot k).modules ≤ 1) || (s.slot k).tide.passed)

/-- The next cycle begins; the counts of its stretched clocks follow R219. -/
def nextCycle (s : State) : State :=
  let s := stretchTick (waitsForCounts s) s
  claimCycle { s.regCycle with cycle := s.cycle + 1, ticks := s.ticks + 1, host := { s.host with batch := none } }

/-- One effect that comes into force (R43), reservoir accesses and weight-version operations apart. -/
def applyEffect (e : Effect) (s : State) : State :=
  match e with
  | .gset t rd v => s.modTile t fun x => x.setGr rd v
  | .pset t pd v => s.modTile t fun x => x.setPr pd v
  | .vset t vd l => (s.eccFresh placeVec (t * 1024 + vd.val * 32) 32).modTile t fun x => x.setVr vd l
  | .flags t m => s.modTile t fun x => { x with flags := x.flags ||| m }
  | .cfg t arr w => s.modTile t fun x => x.setArr arr { x.arr arr with cfg := w }
  | .couch t epi c => s.modTile t fun x => { x with couch := tset CouchEntry.zero x.couch epi.val c }
  | .vsr t tensor base => s.modTile t fun x => { x with srTensor := tensor, srBase := base }
  | .access a => { s with mem := { s.mem with acc := s.mem.acc ++ [a] } }
  | .drainRow t uid i => drainRow t uid i s
  | .drainOut t uid i => drainOut t uid i s
  | .shadow t q uid j => shadowAsk t q uid j s
  | .shadowHalf t half of data chk => shadowHalf t half of data chk s
  | .shadowRead .. => s
  | .rsvRead .. => s
  | .rsvWrite .. => s
  | .wv .. => s

/-- Weight-version operations of one cycle in the order of R116. -/
def wvKey : Effect → Nat
  | .wv kind t _ _ _ _ => kind * 2304 + t
  | _ => 0

def insWv (e : Effect) : List Effect → List Effect
  | [] => [e]
  | f :: r => if wvKey e < wvKey f then e :: f :: r else f :: insWv e r

def wvApply (e : Effect) (s : State) : State :=
  match e with
  | .wv kind t q entry ver tag => wvServe kind t q entry ver tag s
  | _ => s

def Effect.isRsv : Effect → Bool
  | .rsvRead .. => true
  | .rsvWrite .. => true
  | .shadowRead .. => true
  | _ => false

def Effect.isWv : Effect → Bool
  | .wv .. => true
  | _ => false

/-- The effects of the cycle that has begun. -/
def applyDue (s : State) : State :=
  let due := (s.sched.filter fun e => e.1 ≤ s.cycle).map (·.2)
  let s := { s with sched := s.sched.filter fun e => !(e.1 ≤ s.cycle) }
  let s := due.foldl (fun s e => applyEffect e s) s
  let s := rsvCycle (due.filter Effect.isRsv) s
  ((due.filter Effect.isWv).foldl (fun l e => insWv e l) []).foldl (fun s e => wvApply e s) s

/-- An array is off 16 cycles after mm.pwr (R276). -/
def ArraySt.settle (a : ArraySt) (c : Nat) : ArraySt :=
  match a.pwr with
  | .entering _ d => if d ≤ c then { a with pwr := .off } else a
  | _ => a

/-- The operand buffers of the blocks about to be rounded in every cell are read (R408). -/
def readBuffers (s : State) : State :=
  s.tiles.foldl (fun s e =>
    ([0, 1] : List (Fin 2)).foldl (fun s (a : Fin 2) =>
      ((s.tile e.1).arr a).streams.foldl (fun s st => if st.foldable s.cycle then bufRead e.1 a st st.folded s else s) s) s) s

/-- Blocks rounded in every cell are added into their sets, and what tiles keep of things that are over is dropped. -/
def settleTiles (s : State) : State :=
  let s := if s.mem.ecc.isEmpty then s else readBuffers s
  s.tiles.foldl (fun s e => s.modTile e.1 fun x =>
    let x := foldStreams 1 s.cycle (foldStreams 0 s.cycle x)
    { x with arr0 := x.arr0.settle s.cycle, arr1 := x.arr1.settle s.cycle,
             chains := x.chains.filter fun c => !(c.pend.isEmpty && c.till ≤ s.cycle) }) s

/-- The arrival of a program of several modules at its boundary (R313). -/
def tickArrival (s : State) : State :=
  match s.running with
  | some k => if 1 < (s.slot k).modules ∧ ¬ s.ras.hold ∧ (s.slot k).coded.all (tileArrived s) then noteArrival k (settleStreams s) else s
  | none => s

/-- Flits offered at the local ports enter their buffers (R182). -/
def tickOffers (s : State) : State := s.mesh.offer.foldl (fun s e => vEnter e.1 s) s

/-- What waits at the ports of the levee crossings comes in over the edge links (R158). -/
def tickEdges (s : State) : State := s.mesh.inb.foldl (fun s e => edgeIn (e.1 / 5) (e.1 % 5) s) s

/-- A clear of the logbook writes its next position (R452; log entry 184). -/
def tickClear (s : State) : State :=
  if s.log.busy then
    { s with log := { s.log with recs := s.log.recs.filter (fun e => e.1 != s.log.clearAt), clearAt := s.log.clearAt + 1 } }
  else s

/-- What happens in one cycle of the grid; start-up, where it is under way, ends a stage (log entry 53). A stream is in its set,
with its flags, from the cycle the set is ready on (R71, R242, R274). A pulp phase is looked at when the commands of a cycle have
acted, and when its engines have (R206). -/
def gridCycle (s : State) : State :=
  let s := tickLinks (tickPorts (tickStore (tickEdges (tickOffers (tickGathers (tickFelt (tickMesh (tickChains (pulpSettle s)))))))))
  let s := settleStreams (settleTiles (applyDue (nextCycle (tickSeams (tickClear s)))))
  bootStage (stopCheck (holdEnd (windowCycle (tickArrival (pulpSettle (tickPulp s))))))

/-- One cycle of the grid, its records numbered as R444 orders them. -/
def tick (s : State) : State := inOneCycle gridCycle s

end Sys2Proof.Machine
end

