-- ==== Sys2Proof/WellFormed.lean ====
section
/-!
DEFINITION. Which commands are well formed: the encodings the spec reserves are not (R235, R247, R277, R286), and a
run of bytes an operand carries has the length its rule gives it.
-/
namespace Sys2Proof

/-- A flit carries the header of R301 and a payload of 256 bytes or none. -/
def LinkFlit.wf (f : LinkFlit) : Bool := f.payload.length == 256 || f.payload.length == 0

/-- A codeword has 544 symbols (R300). -/
def Fec.wf (c : Fec) : Bool := decide (c.errs ≤ 544)

/-- A submission entry is 128 bytes: 96 of them are ARG (R353). -/
def HostCmd.wf (c : HostCmd) : Bool := c.arg.length == 96

/-- A submission entry of the command with an opcode (R357). -/
def HostCmd.names (c : HostCmd) (op : Nat) : Bool := c.wf && c.op.toNat == op

/-- A command is well formed. -/
def Instr.wf : Instr → Bool
  | .delay _ n => n != 0
  | .feltInject _ lmask _ _ _ _ _ => lmask != 0
  | .feltRemove _ lmask _ _ => lmask != 0
  | .feltCopy _ lmask _ => lmask != 0
  | .vcvt _ _ _ _ wid rm => !wid || rm == .rne
  | .linkNull _ f c => f.wf && c.wf
  | .linkWrite _ f c => f.wf && c.wf
  | .linkAccWrite _ f c => f.wf && c.wf
  | .linkRead _ f c => f.wf && c.wf
  | .linkReadResp _ f c => f.wf && c.wf
  | .linkTide _ f c => f.wf && c.wf
  | .linkDoorbell _ f c => f.wf && c.wf
  | .linkMgmtIdent _ f c => f.wf && c.wf
  | .linkMgmtFailover _ f c => f.wf && c.wf
  | .linkReservedFlit _ f c => f.wf && c.wf
  | .admitCmd c => c.names 1
  | .start c => c.names 2
  | .preempt c => c.names 3
  | .resume c => c.names 4
  | .release c => c.names 5
  | .copyIn c => c.names 6
  | .copyOut c => c.names 7
  | .copyOutDeferred c => c.names 7
  | .abort c => c.names 8
  | .quota c => c.names 9
  | .reservedCommand c => c.wf && (c.op.toNat == 0 || decide (9 < c.op.toNat))
  | .bar4Access write _ len data => !write || data.length == len
  | .challenge _ nonce => nonce.length == 32
  | .getMeasurements _ _ signed nonce => !signed || nonce.length == 32
  | _ => true

/-- The site of an operation of a bundle's slot, with its predicate fields; tide and end have none (R235, R238). -/
def Instr.site : Instr → Option Site
  | .br u _ => some u
  | .loopI u _ _ _ => some u
  | .loopR u _ _ _ => some u
  | .delay u _ => some u
  | .waitQ u _ _ => some u
  | .waitQall u => some u
  | .waitCyc u _ _ => some u
  | .add u _ _ _ => some u
  | .sub u _ _ _ => some u
  | .andR u _ _ _ => some u
  | .orR u _ _ _ => some u
  | .xorR u _ _ _ => some u
  | .sll u _ _ _ => some u
  | .srl u _ _ _ => some u
  | .sra u _ _ _ => some u
  | .slt u _ _ _ => some u
  | .sltu u _ _ _ => some u
  | .mul u _ _ _ => some u
  | .minS u _ _ _ => some u
  | .maxS u _ _ _ => some u
  | .addi u _ _ _ => some u
  | .andi u _ _ _ => some u
  | .ori u _ _ _ => some u
  | .xori u _ _ _ => some u
  | .slli u _ _ _ => some u
  | .srli u _ _ _ => some u
  | .srai u _ _ _ => some u
  | .slti u _ _ _ => some u
  | .ldi u _ _ => some u
  | .ldih u _ _ => some u
  | .ldW u _ _ _ => some u
  | .stW u _ _ _ => some u
  | .pcmp u _ _ _ _ => some u
  | .plog u _ _ _ _ => some u
  | .pset u _ _ => some u
  | .flagsRd u _ => some u
  | .tidRd u _ => some u
  | .spanRd u _ => some u
  | .lcRd u _ _ => some u
  | .tsBank u _ _ _ => some u
  | .mmStream u _ _ _ _ _ _ _ => some u
  | .mmCfg u _ _ => some u
  | .mmPwr u _ _ => some u
  | .feltInject u _ _ _ _ _ _ => some u
  | .feltRemove u _ _ _ => some u
  | .feltCopy u _ _ => some u
  | .couchDrain u _ _ _ _ _ _ => some u
  | .couchSet u _ _ => some u
  | .vadd u _ _ _ _ => some u
  | .vsub u _ _ _ _ => some u
  | .vmul u _ _ _ _ => some u
  | .vfma u _ _ _ _ => some u
  | .vfnma u _ _ _ _ => some u
  | .vmin u _ _ _ _ => some u
  | .vmax u _ _ _ _ => some u
  | .vminn u _ _ _ _ => some u
  | .vmaxn u _ _ _ _ => some u
  | .vabs u _ _ => some u
  | .vneg u _ _ => some u
  | .vcmp u _ _ _ _ => some u
  | .vsel u _ _ _ => some u
  | .vdiv u _ _ _ => some u
  | .vsqrt u _ _ => some u
  | .vtr u _ _ _ => some u
  | .vred u _ _ _ => some u
  | .vcvt u _ _ _ _ _ => some u
  | .vcvti u _ _ _ _ => some u
  | .viadd u _ _ _ => some u
  | .visub u _ _ _ => some u
  | .viand u _ _ _ => some u
  | .vior u _ _ _ => some u
  | .vixor u _ _ _ => some u
  | .visll u _ _ _ => some u
  | .visrl u _ _ _ => some u
  | .vld u _ _ _ => some u
  | .vst u _ _ _ => some u
  | .vbc u _ _ => some u
  | .vidx u _ => some u
  | .vmvg u _ _ _ => some u
  | .vSr u _ _ _ => some u
  | .vFelt u _ _ _ _ => some u
  | .vLp u _ _ _ => some u
  | .meshSend u _ _ _ _ => some u
  | .rvRead u _ _ _ _ => some u
  | .rvWrite u _ _ _ _ => some u
  | .qPush u _ _ => some u
  | .pulpStart u _ => some u
  | .wvPin u _ _ _ _ => some u
  | .wvUnpin u _ _ _ _ => some u
  | .wvClaim u _ _ _ => some u
  | .wvPublish u _ _ _ => some u
  | .chainRun u _ => some u
  | _ => none

end Sys2Proof
end

