-- ==== Sys2Proof/Safety.lean ====
section
/-!
DEFINITION. What counts as a safe run of the block: its memories keep their canonical form, the commands that wait are
well-formed, and a step goes on.
-/
namespace Sys2Proof.Machine

/-- Every byte memory of the state is in canonical form: addresses strictly rising, no entry equal to what an unlisted
address reads as. -/
def State.Canonical (s : State) : Prop :=
  Memory.wf s.mem.ts = true ∧ Memory.wf s.mem.rsv = true ∧ Memory.wf s.mem.hbm = true ∧ Memory.wf s.host.mem = true ∧
    Memory.wf s.boot.window = true

/-- A step that answers a next state. -/
def Runs (s : State) : Prop := ∃ t, step s = .next t

/-- The states that steps lead to from a state. -/
inductive Reaches (s : State) : State → Prop where
  | start : Reaches s s
  | next {t t' : State} : Reaches s t → step t = .next t' → Reaches s t'

/-- A property that holds in a state and that every step keeps holds in every state it leads to. -/
def Inductive (P : State → Prop) : Prop := ∀ s t, P s → step s = .next t → P t

/-- A command answers a next state of which P holds. -/
def Answers (c : Instr) (s : State) (P : State → Prop) : Prop := ∃ t, exec c s = .next t ∧ P t

/-- t is s but for the logbook and what a record raises: register bits and counters, interrupts, sent or pending, a pending
stop. -/
def OnlyLogs (s t : State) : Prop :=
  t = { s with log := t.log, regs := t.regs, irq := t.irq, msixPend := t.msixPend, slots := t.slots, fatalHeld := t.fatalHeld }

/-- t is s with effects added to those that come into force in later cycles; a debug build may also have logged a
HAZARD record. -/
def Schedules (s t : State) (l : List (Nat × Effect)) : Prop :=
  t.sched = s.sched ++ l ∧ OnlyLogs { s with sched := t.sched } t ∧ (s.debug = false → t = { s with sched := t.sched })

/-- The next bundle of a tile may issue, all its slots are no-operation, and its instruction memory reads without an
error. -/
def NoopBundle (s : State) (t : TileId) : Prop :=
  mayIssue s t.val = true ∧ (s.tile t.val).pc < 1023 ∧
    (∀ k, k < 8 → slotWord s t.val (s.tile t.val).pc k = 0) ∧
    ∀ k, k < 4 → tget 0 s.mem.ecc (eccKey placeImem (t.val * 4096 + 4 * (s.tile t.val).pc + k)) = 0

/-- Loop j after a branch to a target is taken (R246): deactivated when the target leaves its range, or that of a loop below
it, while that is active. -/
def loopAfter (loop : Nat → Loop) (target j : Nat) : Loop :=
  if ∃ k ≤ j, (loop k).active = true ∧ (target < (loop k).start ∨ (loop k).stop < target) then {} else loop j

/-- Outside tile n every tile stands as before. -/
def TilesBut (n : Nat) (s t : State) : Prop := ∀ k, k ≠ n → t.tile k = s.tile k

/-- A V operation issued in this cycle at tile n: VD takes the lanes after some cycles, the flags of R71 with it when
there are any, and the unit counts as used; x is the tile but for that. -/
def VectorIssues (s t : State) (n : Nat) (x : Tile) (vd : VReg) (after : Nat) (lanes : List Word) (fl : Byte) : Prop :=
  t.sched = s.sched ++ (if fl = 0 then [] else [(s.cycle + after, .flags n fl)]) ++ [(s.cycle + after, .vset n vd lanes)] ∧
    t.tile n = { x with vLast := some s.cycle, vGated := false } ∧ TilesBut n s t ∧
    OnlyLogs { s with tiles := t.tiles, sched := t.sched } t

/-! ### What commands leave for later cycles -/

/-- An effect on registers of a tile, or an access that it places. -/
def Effect.plain : Effect → Bool
  | .gset .. | .pset .. | .vset .. | .flags .. | .cfg .. | .couch .. | .vsr .. | .access _ => true
  | _ => false

/-- The effects that come into force in the current cycle, in the order in which they were issued. -/
def State.dueNow (s : State) : List Effect := (s.sched.filter fun e => e.1 ≤ s.cycle).map (·.2)

/-- No command waits, and nothing is under way on the grid or on the links but scheduled effects and accesses; a program that runs
is of one module and does not end. -/
def Quiet (s : State) : Prop :=
  s.pending = [] ∧ s.boot.plan = none ∧ s.ras.win = 0 ∧ s.ras.hold = false ∧ s.log.busy = false ∧ s.pulp = [] ∧ s.mesh = {} ∧ s.felt = {} ∧
    s.que.q = [] ∧ s.ports = [] ∧ s.linkHeld = [] ∧ s.mem.ecc = [] ∧
    (∀ k, s.running = some k → (s.slot k).ending = none ∧ (s.slot k).modules ≤ 1) ∧
    ∀ e ∈ s.tiles, e.2.chains = [] ∧ e.2.arr0.streams = [] ∧ e.2.arr1.streams = []

/-! ### Links -/

/-- A flit that a port receives in order and that its check finds whole, in a codeword that could be corrected: it acknowledges
nothing new, asks for no replay, and no flit that came on its channel waits to go on, or to be taken. -/
def LinkGood (p : Nat) (f : LinkFlit) (s : State) : Prop :=
  (s.port p).streaming = true ∧ ((s.port p).rxPos = 0 ∨ (s.port p).rxBad = false) ∧ f.fcrc = flitCrc f.hdr f.payload f.schk ∧ flitFd f 187 176 = (s.port p).expect ∧
    flitFd f 175 164 = (s.port p).acked ∧ flitFd f 163 163 = 0 ∧ flitFd f 162 160 < 5 ∧
    (∀ e ∈ s.ports, ∀ w ∈ e.2.waiting, ∀ g ∈ w.2, g.buf ≠ some (p, flitFd f 162 160)) ∧
    ∀ x ∈ s.linkHeld, ¬ (x.1 = p ∧ x.2.1 = flitFd f 162 160)

/-- The port has taken a flit: it expects the next one, and the credits of the flit have come in (R304, R306). -/
def LinkTaken (p : Nat) (f : LinkFlit) (s t : State) : Prop :=
  (t.port p).expect = ((s.port p).expect + 1) % 4096 ∧ (t.port p).nak = false ∧ (t.port p).acked = (s.port p).acked ∧
    (t.port p).retry = (s.port p).retry ∧
    ∀ v, v < 5 →
      tget 0 (t.port p).credit v = min (bufCap v) (tget 0 (s.port p).credit v + flitFd f (135 + 6 * v) (130 + 6 * v))

/-- The data of the memories, and the checks of HBM, stand as before: reads may have reported or corrected errors. -/
def SameData (s t : State) : Prop :=
  t.mem.hbm = s.mem.hbm ∧ t.mem.hbmChk = s.mem.hbmChk ∧ t.mem.ts = s.mem.ts ∧ t.mem.rsv = s.mem.rsv

/-- One flit waits anew at a port, last on its channel, numbered as the next of the module. -/
def Queued (q : Nat) (g : TxFlit) (s t : State) : Prop :=
  tget [] (t.port q).waiting g.vc = tget [] (s.port q).waiting g.vc ++ [{ g with ord := s.linkN }]

/-- The flit that left the port last carries f with a sequence number and the link fields of the port (R302). -/
def SendsFlit (p : Nat) (f : TxFlit) (seq : Nat) (s t : State) : Prop :=
  ∃ l : LinkFlit, (t.port p).sent = some l ∧ l.payload = padTo f.payload 256 ∧ l.schk = f.schk ∧
    l.fcrc = flitCrc l.hdr l.payload l.schk ∧
    (f.hdr < 2 ^ 192 → f.hdr % 2 ^ 188 < 2 ^ 130 → f.vc < 8 → seq < 4096 →
      flitType l = f.hdr / 2 ^ 188 ∧ flitFd l 187 176 = seq ∧ flitFd l 175 164 = ((s.port p).expect + 4095) % 4096 ∧
      flitFd l 163 163 = (if (s.port p).nak then 1 else 0) ∧ flitFd l 162 160 = f.vc ∧ flitFd l 129 0 = f.hdr % 2 ^ 130)

/-! ### Host commands -/

/-- A command may start, and its reserved bytes are 0 (R353); uses are the bytes of SE_ARG that it has. -/
def Starts (c : HostCmd) (uses : List (Nat × Nat)) (s : State) : Prop :=
  mayStart s c = true ∧ c.flags.toNat < 2 ∧ c.rsv = 0 ∧ argZero c uses = true

/-- The command has ended with a status: its completion entry waits in its queue, if that queue is enabled (R354, R355). -/
def Ends (c : HostCmd) (status : Nat) (s t : State) : Prop :=
  (s.hq c.fn.val c.q.val).enabled = true → (∀ a ∈ s.host.accepted, a.c = c → a.gone = false) →
    ∃ x ∈ t.host.waiting, x.fn = c.fn ∧ x.q = c.q ∧ x.cid = c.cid ∧ x.ty = 0 ∧ x.status = status

/-- The command names a slot that its function owns. -/
def OwnsSlot (c : HostCmd) (k : Nat) (s : State) : Prop := c.slot.toNat = k ∧ k < 16 ∧ (s.slot k).owner = some c.fn

end Sys2Proof.Machine
end

