-- ==== Sys2Proof/Certificates/Slice0/Obligations.lean ====
section
/-!
DEFINITION. The statements about the model, for the provers.
-/

section

open Sys2Proof Sys2Proof.Machine

/-! ### The block and its queue -/

/-- A step with a command at the front of the queue is exec of that command on the state with the queue's rest. -/
def Obligations.StepRunsFront : Prop :=
  ∀ (c : Instr) (s : State), step { s with pending := c :: s.pending } = exec c s

/-- R237: an operation whose predicate does not hold changes nothing, in every slot. R255: an operation of the M, D or V
slot whose unit a chain stage takes in this cycle is discarded. -/
def Obligations.PredicatedOff : Prop :=
  (∀ (c : Instr) (u : Site) (s : State), c.site = some u → c.wf = true → s.on u = false → exec c s = .next s) ∧
  (∀ (c : Instr) (u : Site) (k : Nat) (s : State), c.site = some u → c.wf = true → slotPlace c = some (u.tile, k) →
     k = slotM 0 ∨ k = slotM 1 ∨ k = slotD ∨ k = slotV → s.on u = true → s.chainBusy u.tile.val k = true →
     Answers c s (OnlyLogs s))

/-! ### The S slot -/

/-- R241, register forms: RD takes the result of RA and RB as read in the issue cycle, after one cycle, after three for
mul; nothing else changes but the HAZARD record of a collision in a debug build (R239). R241, immediate forms: RD
takes the result of RA and the immediate in the next cycle; ldih keeps RD[14:0]. -/
def Obligations.ScalarOperations : Prop :=
  (∀ (u : Site) (rd ra rb : GReg) (s : State), s.on u = true →
     let w (n : Nat) (v : Word) : State → Prop := fun t => Schedules s t [(s.cycle + n, .gset u.tile.val rd v)]
     let a := (s.tile u.tile.val).gr ra
     let b := (s.tile u.tile.val).gr rb
     Answers (.add u rd ra rb) s (w 1 (a + b)) ∧
     Answers (.sub u rd ra rb) s (w 1 (a - b)) ∧
     Answers (.andR u rd ra rb) s (w 1 (a &&& b)) ∧
     Answers (.orR u rd ra rb) s (w 1 (a ||| b)) ∧
     Answers (.xorR u rd ra rb) s (w 1 (a ^^^ b)) ∧
     Answers (.sll u rd ra rb) s (w 1 (a <<< (b.toNat % 32))) ∧
     Answers (.srl u rd ra rb) s (w 1 (a >>> (b.toNat % 32))) ∧
     Answers (.sra u rd ra rb) s (w 1 (BitVec.ofInt 32 (a.toInt / 2 ^ (b.toNat % 32)))) ∧
     Answers (.slt u rd ra rb) s (w 1 (if a.toInt < b.toInt then 1 else 0)) ∧
     Answers (.sltu u rd ra rb) s (w 1 (if a.toNat < b.toNat then 1 else 0)) ∧
     Answers (.mul u rd ra rb) s (w 3 (BitVec.ofNat 32 (a.toNat * b.toNat))) ∧
     Answers (.minS u rd ra rb) s (w 1 (BitVec.ofInt 32 (min a.toInt b.toInt))) ∧
     Answers (.maxS u rd ra rb) s (w 1 (BitVec.ofInt 32 (max a.toInt b.toInt)))) ∧
  (∀ (u : Site) (rd ra : GReg) (imm : BitVec 12) (sh : BitVec 5) (big : BitVec 17) (s : State), s.on u = true →
     let w (v : Word) : State → Prop := fun t => Schedules s t [(s.cycle + 1, .gset u.tile.val rd v)]
     let a := (s.tile u.tile.val).gr ra
     let i := imm.signExtend 32
     Answers (.addi u rd ra imm) s (w (a + i)) ∧
     Answers (.andi u rd ra imm) s (w (a &&& i)) ∧
     Answers (.ori u rd ra imm) s (w (a ||| i)) ∧
     Answers (.xori u rd ra imm) s (w (a ^^^ i)) ∧
     Answers (.slli u rd ra sh) s (w (BitVec.ofNat 32 (a.toNat * 2 ^ sh.toNat))) ∧
     Answers (.srli u rd ra sh) s (w (BitVec.ofNat 32 (a.toNat / 2 ^ sh.toNat))) ∧
     Answers (.srai u rd ra sh) s (w (BitVec.ofInt 32 (a.toInt / 2 ^ sh.toNat))) ∧
     Answers (.slti u rd ra imm) s (w (if a.toInt < i.toInt then 1 else 0)) ∧
     Answers (.ldi u rd big) s (w (BitVec.ofInt 32 big.toInt)) ∧
     Answers (.ldih u rd big) s
       (w (BitVec.ofNat 32 (big.toNat * 2 ^ 15 + ((s.tile u.tile.val).gr rd).toNat % 2 ^ 15))))

/-- R241, R242: flags.rd reads the flags in force, tid.rd the tile id, span.rd the span number, lc.rd the remaining passes
of an active loop and 0 of an inactive one. R241: pcmp writes the comparison to PD in the next cycle, signed or
unsigned, plog the function of two predicates, pset its V. -/
def Obligations.ScalarReadsAndPredicates : Prop :=
  (∀ (u : Site) (rd : GReg) (k : Fin 4) (s : State), s.on u = true →
     let w (v : Word) : State → Prop := fun t => Schedules s t [(s.cycle + 1, .gset u.tile.val rd v)]
     let x := s.tile u.tile.val
     Answers (.flagsRd u rd) s (w (BitVec.ofNat 32 x.flags.toNat)) ∧
     Answers (.tidRd u rd) s (w (BitVec.ofNat 32 u.tile.val)) ∧
     Answers (.spanRd u rd) s (w (BitVec.ofNat 32 s.spanNo)) ∧
     Answers (.lcRd u rd k) s (w (if (x.loop k.val).active then BitVec.ofNat 32 (x.loop k.val).passes else 0))) ∧
  (∀ (u : Site) (pd pa pb : PReg) (ra rb : GReg) (v : Bool) (s : State), s.on u = true →
     let w (v : Bool) : State → Prop := fun t => Schedules s t [(s.cycle + 1, .pset u.tile.val pd v)]
     let x := s.tile u.tile.val
     let a := x.gr ra
     let b := x.gr rb
     let p := x.pr pa
     let q := x.pr pb
     Answers (.pcmp u pd ra rb .eq) s (w (decide (a = b))) ∧
     Answers (.pcmp u pd ra rb .ne) s (w (decide (a ≠ b))) ∧
     Answers (.pcmp u pd ra rb .lt) s (w (decide (a.toInt < b.toInt))) ∧
     Answers (.pcmp u pd ra rb .ltu) s (w (decide (a.toNat < b.toNat))) ∧
     Answers (.pcmp u pd ra rb .ge) s (w (decide (b.toInt ≤ a.toInt))) ∧
     Answers (.pcmp u pd ra rb .geu) s (w (decide (b.toNat ≤ a.toNat))) ∧
     Answers (.plog u pd pa pb .and) s (w (p && q)) ∧
     Answers (.plog u pd pa pb .or) s (w (p || q)) ∧
     Answers (.plog u pd pa pb .xor) s (w (p ^^ q)) ∧
     Answers (.plog u pd pa pb .andNot) s (w (p && !q)) ∧
     Answers (.pset u pd v) s (w v))

/-- R238: p0 reads 1 and a write to it is discarded; a write to any other predicate register changes that one; a C-slot
tide or end that names a predicate is a reserved encoding. -/
def Obligations.PredicateRegisters : Prop :=
  (∀ (x : Tile), x.pr 0 = true ∧ ∀ v, x.setPr 0 v = x) ∧
  (∀ (x : Tile) (p q : PReg) (v : Bool), p ≠ 0 → (x.setPr p v).pr q = if q = p then v else x.pr q) ∧
  ∀ (t : TileId) (w : Word), (wfld w 31 26 = 0x08 ∨ wfld w 31 26 = 0x09) → wfld w 25 22 ≠ 0 →
    decodeSlot t 0 w = .reserved

/-- R242: ld.w and st.w access one word of the tile store in the cycle they issue, at RA plus the immediate with its two
low bits ignored; a load becomes visible at t + 5, t + 6 in a debug build. An address outside the store has no effect
(R240). -/
def Obligations.ScalarMemory : Prop :=
  ∀ (u : Site) (rd ra : GReg) (imm : BitVec 12) (s : State), s.on u = true →
    let t := u.tile.val
    let raw := ((s.tile t).gr ra + imm.signExtend 32).toNat
    let a := raw - raw % 4
    (raw < 0x30000 →
      Answers (.ldW u rd ra imm) s (fun s' =>
        s'.mem = { s.mem with acc := s.mem.acc ++
          [.read t 9 0 [(a, 4)] (.greg rd (s.cycle + (if s.debug then 6 else 5)))] } ∧
        OnlyLogs { s with mem := s'.mem } s' ∧ (raw % 4 = 0 → s' = { s with mem := s'.mem })) ∧
      Answers (.stW u rd ra imm) s (fun s' =>
        s'.mem = { s.mem with acc := s.mem.acc ++
          [.write t 9 0 [(a, leBytes ((s.tile t).gr rd).toNat 4)] 0 0 s.cycle] } ∧
        OnlyLogs { s with mem := s'.mem } s' ∧ (raw % 4 = 0 → s' = { s with mem := s'.mem }))) ∧
    (0x30000 ≤ raw → Answers (.ldW u rd ra imm) s (OnlyLogs s) ∧ Answers (.stW u rd ra imm) s (OnlyLogs s))

/-! ### The C slot and the issue of bundles -/

/-- A bundle of no-operations: the next address follows, or the start of a loop that ends there with passes left, or the
target of a taken branch after its delay bundle (R236, R244, R245). A bundle whose only operation stands in the S slot
has the effect of that operation's own command, and the next address follows (R236). -/
def Obligations.Bundles : Prop :=
  (∀ (t : TileId) (s : State), NoopBundle s t →
     let x := s.tile t.val
     let y : Tile := { x with cur := x.pc, nextAt := s.cycle + 1, mates := [] }
     (x.brTarget = none → (∀ k, k < 4 → (x.loop k).active = true → (x.loop k).stop ≠ x.pc) →
       exec (.bundleIssue t) s = .next (s.setTile t.val { y with pc := x.pc + 1 })) ∧
     (∀ k, k < 4 → x.brTarget = none → (x.loop k).active = true → (x.loop k).stop = x.pc → (x.loop k).start < 1024 →
       (∀ j, j < 4 → j ≠ k → (x.loop j).active = true → (x.loop j).stop ≠ x.pc) →
       exec (.bundleIssue t) s = .next (s.setTile t.val
         (if (x.loop k).passes ≤ 1 then { y.setLoop k {} with pc := x.pc + 1 }
          else { y.setLoop k { x.loop k with passes := (x.loop k).passes - 1 } with pc := (x.loop k).start }))) ∧
     (∀ b, x.brTarget = some b → b < 1024 →
       exec (.bundleIssue t) s = .next (s.setTile t.val { y with brTarget := none, pc := b }))) ∧
  (∀ (t : TileId) (i : Instr) (s s' : State), mayIssue s t.val = true →
     let x := s.tile t.val
     x.pc < 1023 → x.brTarget = none → (∀ k, k < 4 → (x.loop k).active = false) →
     (∀ k, k < 8 → k ≠ 1 → slotWord s t.val x.pc k = 0) →
     (∀ k, k < 4 → tget 0 s.mem.ecc (eccKey placeImem (t.val * 4096 + 4 * x.pc + k)) = 0) →
     decodeSlot t 1 (slotWord s t.val x.pc 1) = .op i →
     exec i (s.setTile t.val { x with cur := x.pc, mates := [] }) = .next s' → (s'.tile t.val).core = .running → s'.cycle = s.cycle →
     (∀ k, k < 4 → ((s'.tile t.val).loop k).active = false) → (s'.tile t.val).brTarget = none →
     exec (.bundleIssue t) s =
       .next (s'.modTile t.val fun y => { y with nextAt := s.cycle + 1, pc := x.pc + 1 }))

/-- R244, R246: a taken br names its target for the bundle after the delay bundle; an active loop whose range the target
leaves is deactivated, with every loop above it; nothing else changes. R245, R246: a loop form makes loop k active
from the next bundle to END with its pass count; one that was active is replaced, and the loops above it are
deactivated. With 0 passes it is a taken branch to END + 1. -/
def Obligations.BranchesAndLoops : Prop :=
  (∀ (u : Site) (target : Fin 1024) (s : State), s.on u = true →
     let n := u.tile.val
     let x := s.tile n
     Answers (.br u target) s fun t =>
       (t.tile n).brTarget = some target.val ∧ (∀ j, j < 4 → (t.tile n).loop j = loopAfter x.loop target.val j) ∧
       t.tile n = { x with brTarget := some target.val, loops := (t.tile n).loops } ∧ TilesBut n s t ∧
       t = { s with tiles := t.tiles }) ∧
  (∀ (u : Site) (k : Fin 4) (stop count : Fin 1024) (ra : GReg) (s : State), s.on u = true →
     let n := u.tile.val
     let x := s.tile n
     let started (passes : Nat) (t : State) : Prop :=
       (∀ j, j < 4 → (t.tile n).loop j =
         if j = k.val then ⟨true, x.cur + 1, stop.val, passes⟩
         else if k.val < j ∧ (x.loop k.val).active = true then {} else x.loop j) ∧
       t.tile n = { x with loops := (t.tile n).loops } ∧ TilesBut n s t ∧ OnlyLogs { s with tiles := t.tiles } t
     let kept (j : Nat) : Loop := if k.val ≤ j ∧ (x.loop k.val).active = true then {} else x.loop j
     let skipped (t : State) : Prop :=
       (t.tile n).brTarget = some (stop.val + 1) ∧
       (∀ j, j < 4 → (t.tile n).loop j = loopAfter kept (stop.val + 1) j) ∧
       t.tile n = { x with brTarget := some (stop.val + 1), loops := (t.tile n).loops } ∧ TilesBut n s t ∧
       OnlyLogs { s with tiles := t.tiles } t
     (0 < count.val → Answers (.loopI u k stop count) s (started count.val)) ∧
     (count.val = 0 → Answers (.loopI u k stop count) s skipped) ∧
     (x.gr ra ≠ 0 → Answers (.loopR u k stop ra) s (started (x.gr ra).toNat)) ∧
     (x.gr ra = 0 → Answers (.loopR u k stop ra) s skipped))

/-- R247: a delay of N holds the tile's next bundle back for N cycles; its expiry lets the tile issue in that cycle, and
before its cycles have elapsed it does nothing. N = 0 is a reserved encoding. R251, R252: a tide marks the tile as
arrived in this cycle with the span record it names; end ends the tile's program. From then on the tile issues no
bundle. -/
def Obligations.DelayTideAndEnd : Prop :=
  (∀ (u : Site) (n : BitVec 16) (t : TileId) (c : Nat) (s : State),
     (s.on u = true → n ≠ 0 →
       exec (.delay u n) s =
         .next (s.setTile u.tile.val { s.tile u.tile.val with core := .delayed (s.cycle + n.toNat) })) ∧
     exec (.delay u 0) s = .refused .reservedEncoding ∧
     ((s.tile t.val).core = .delayed c → c ≤ s.cycle →
       exec (.delayExpiry t) s = .next (s.setTile t.val { s.tile t.val with core := .running, nextAt := s.cycle })) ∧
     ((s.tile t.val).core = .delayed c → s.cycle < c → exec (.delayExpiry t) s = .next s)) ∧
  (∀ (t : TileId) (span : Fin 4096) (s : State),
     Answers (.tide t span) s (fun s' =>
       s'.tile t.val = { s.tile t.val with core := .arrived span.val s.cycle } ∧ TilesBut t.val s s' ∧
       OnlyLogs { s with tiles := s'.tiles } s' ∧ exec (.bundleIssue t) s' = .next s') ∧
     Answers (.endProg t) s (fun s' =>
       s' = s.setTile t.val { s.tile t.val with core := .ended } ∧ exec (.bundleIssue t) s' = .next s'))

/-- R156, R249, R250: a wait whose condition holds when it issues lets the next bundle issue in the next cycle, with the
status of the tag, or C − t, visible to it; the tag's status is cleared. R167, R249: a wait whose condition does not
hold, or that issues while the slot on the grid is stopping, stands; the tile issues nothing until it is left, and
only records of the logbook and the start of a pre-emption can be seen. R249, R250: a tile leaves a wait it stands in
when the condition holds, with the same effects, and stands in it while the condition does not hold or the slot is
stopping; a tile in no wait is not changed. R209: a wait on a tag whose work a halt stopped does not complete, though
the tag counts nothing. R239: where a higher slot of the wait's bundle writes RD in the same cycle,
that write stands and the wait makes none. -/
def Obligations.Waits : Prop :=
  (∀ (u : Site) (rd ra : GReg) (tag : TagNo) (s : State), s.on u = true → s.held = false →
     let n := u.tile.val
     let x := s.tile n
     let k := s.tag n tag.val
     let went (t : State) : Prop := t.tile n = { x with core := .running, nextAt := s.cycle + 1 } ∧ TilesBut n s t
     let writes (v : Word) (t : State) : Prop := t.sched =
       if (s.cycle + 1, rd) ∈ x.mates then s.sched else s.sched ++ [(s.cycle + 1, .gset n rd v)]
     (k.count = 0 → s.haltedTag n tag.val = false → Answers (.waitQ u rd tag) s fun t =>
       went t ∧ t.tag n tag.val = { count := 0, kind := 0, first := 0 } ∧
       (∀ m j, m * 64 + j ≠ n * 64 + tag.val → t.tag m j = s.tag m j) ∧
       writes (if k.kind = 0 then 0 else BitVec.ofNat 32 (k.first * 2 ^ 16 + k.kind.toNat)) t ∧
       OnlyLogs { s with tiles := t.tiles, sched := t.sched, que := { s.que with tags := t.que.tags } } t) ∧
     ((∀ j, j < 64 → (s.tag n j).count = 0) → Answers (.waitQall u) s fun t =>
       went t ∧ OnlyLogs { s with tiles := t.tiles } t) ∧
     ((x.gr ra).toNat ≤ s.cycle → Answers (.waitCyc u rd ra) s fun t =>
       went t ∧ writes (x.gr ra - BitVec.ofNat 32 s.cycle) t ∧ OnlyLogs { s with tiles := t.tiles, sched := t.sched } t)) ∧
  (∀ (u : Site) (rd ra : GReg) (tag : TagNo) (s : State), s.on u = true →
     let n := u.tile.val
     let stands (c : CoreState) (t : State) : Prop :=
       t.tile n = { s.tile n with core := c } ∧ TilesBut n s t ∧ OnlyLogs { s with tiles := t.tiles } t ∧
       exec (.bundleIssue u.tile) t = .next t
     (s.held = true ∨ (s.tag n tag.val).count ≠ 0 ∨ s.haltedTag n tag.val = true →
       Answers (.waitQ u rd tag) s (stands (.waitTag tag rd s.cycle))) ∧
     (s.held = true ∨ (∃ j, j < 64 ∧ (s.tag n j).count ≠ 0) → Answers (.waitQall u) s (stands (.waitAll s.cycle))) ∧
     (s.held = true ∨ s.cycle < ((s.tile n).gr ra).toNat →
       Answers (.waitCyc u rd ra) s (stands (.waitCyc ((s.tile n).gr ra).toNat rd s.cycle)))) ∧
  (∀ (t : TileId) (rd : GReg) (tag : TagNo) (c since : Nat) (s : State),
     let n := t.val
     let x := s.tile n
     let k := s.tag n tag.val
     let went (s' : State) : Prop := s'.tile n = { x with core := .running, nextAt := s.cycle + 1 } ∧ TilesBut n s s'
     let writes (v : Word) (s' : State) : Prop := s'.sched =
       if (s.cycle + 1, rd) ∈ x.mates then s.sched else s.sched ++ [(s.cycle + 1, .gset n rd v)]
     (x.core = .waitTag tag rd since →
       (s.held = false → k.count = 0 → s.haltedTag n tag.val = false → Answers (.waitComplete t) s fun s' =>
         went s' ∧ s'.tag n tag.val = { count := 0, kind := 0, first := 0 } ∧
         (∀ m j, m * 64 + j ≠ n * 64 + tag.val → s'.tag m j = s.tag m j) ∧
         writes (if k.kind = 0 then 0 else BitVec.ofNat 32 (k.first * 2 ^ 16 + k.kind.toNat)) s' ∧
         OnlyLogs { s with tiles := s'.tiles, sched := s'.sched, que := { s.que with tags := s'.que.tags } } s') ∧
       (s.held = true ∨ k.count ≠ 0 ∨ s.haltedTag n tag.val = true → Answers (.waitComplete t) s (OnlyLogs s))) ∧
     (x.core = .waitAll since →
       (s.held = false → (∀ j, j < 64 → (s.tag n j).count = 0) →
         exec (.waitComplete t) s = .next (s.setTile n { x with core := .running, nextAt := s.cycle + 1 })) ∧
       (s.held = true ∨ (∃ j, j < 64 ∧ (s.tag n j).count ≠ 0) → exec (.waitComplete t) s = .next s)) ∧
     (x.core = .waitCyc c rd since →
       (s.held = false → c ≤ s.cycle → Answers (.waitComplete t) s fun s' =>
         went s' ∧ writes (BitVec.ofNat 32 c - BitVec.ofNat 32 since) s' ∧
         OnlyLogs { s with tiles := s'.tiles, sched := s'.sched } s') ∧
       (s.held = true ∨ s.cycle < c → exec (.waitComplete t) s = .next s)) ∧
     (x.core = .running ∨ x.core = .ended ∨ x.core = .delayed c → exec (.waitComplete t) s = .next s))

/-! ### Banks of the tile store -/

/-- R127, R129: ts.bank names the banks of its mask that no earlier ts.bank holds: each waits under the tag, a bank that
goes to RET or OFF is closed from this cycle on, a bank that goes to ON exits RET in 32 and OFF in 128 cycles; the tag
counts one operation more when a bank is named. A bank that an earlier ts.bank holds is not named, and stands with those
outside the mask. R127, R404: a bank that leaves OFF is filled with zeros and the checks of the tile's sheets are computed
over what the store then holds; no other byte of any store changes. -/
def Obligations.TsBank : Prop :=
  ∀ (u : Site) (target : BankTarget) (ra : GReg) (tag : TagNo) (s : State), s.on u = true →
    let n := u.tile.val
    let m := (s.tile n).gr ra
    let named (b : Nat) : Prop := m.getLsbD b = true ∧ (s.bank n b).req = none
    (∀ b, b < 32 → m.getLsbD b = true →
      (s.bank n b).pwr = .on ∨ (s.bank n b).pwr = .ret ∨ (s.bank n b).pwr = .off) →
    Answers (.tsBank u target ra tag) s fun t =>
      (∀ b, b < 32 →
        (named b → t.bank n b =
          match target with
          | .on => { s.bank n b with
              req := some (.on, tag, s.uid),
              pwr := if (s.bank n b).pwr = .on then .on
                else .exiting (s.cycle + if (s.bank n b).pwr = .ret then 32 else 128) }
          | _ => { s.bank n b with
              req := some (target, tag, s.uid), closedAt := some ((s.bank n b).closedAt.getD s.cycle) }) ∧
        (¬ named b → t.bank n b = s.bank n b)) ∧
      ((∃ b, b < 32 ∧ named b) → t.tag n tag.val = { s.tag n tag.val with count := (s.tag n tag.val).count + 1 }) ∧
      ((∀ b, b < 32 → ¬ named b ∧ (s.bank n b).req ≠ some (target, tag, s.uid)) → t.tag n tag.val = s.tag n tag.val) ∧
      t.tile n = { s.tile n with banks := (t.tile n).banks } ∧ TilesBut n s t ∧
      (let filled (b : Nat) : Prop := target = .on ∧ b < 32 ∧ named b ∧ (s.bank n b).pwr = .off
       (∀ a, (a / 0x30000 = n ∧ filled (bankOf (a % 0x30000 / 8)) → mget t.mem.ts a = 0) ∧
         (¬ (a / 0x30000 = n ∧ filled (bankOf (a % 0x30000 / 8))) → mget t.mem.ts a = mget s.mem.ts a)) ∧
       ((∃ b, filled b) → ∀ k, k < 768 → t.sheet n k = { crc := crc32c (t.ts n (256 * k) 256) }) ∧
       (∀ k, k < n * 768 ∨ n * 768 + 768 ≤ k → tget {} t.mem.sheets k = tget {} s.mem.sheets k) ∧
       ((∀ b, ¬ filled b) → t.mem = s.mem) ∧
       t.mem = { s.mem with ts := t.mem.ts, sheets := t.mem.sheets, ecc := t.mem.ecc }) ∧
      OnlyLogs { s with tiles := t.tiles, mem := t.mem, que := { s.que with tags := t.que.tags }, uid := s.uid + 1 } t

/-- R127, R129: the entry of a bank on its way to RET or OFF begins when its write-acceptance count is 0 and takes 8
cycles; with writes of it still accepted nothing happens. R127: the one bank that a ts.bank waits for has completed
its entry: the bank is in RET or OFF and stays closed, the tag counts one less, and the bytes of a bank that went OFF
read 0; every other byte of every store is unchanged. One that has completed its exit is ON and open, and no byte
changes. Before its cycle is here, nothing changes. -/
def Obligations.BankTransitions : Prop :=
  (∀ (t : TileId) (b : Fin 32) (target : BankTarget) (tag : TagNo) (id : Nat) (s : State),
     (s.bank t.val b.val).req = some (target, tag, id) → target ≠ .on → (s.bank t.val b.val).pwr = .on →
     (s.accepted t.val b.val = 0 →
       exec (.bankGateEntry t b) s = .next (s.setBank t.val b.val
         { s.bank t.val b.val with pwr := .entering (decide (target = .ret)) (s.cycle + 8) })) ∧
     (s.accepted t.val b.val ≠ 0 → exec (.bankGateEntry t b) s = .next s)) ∧
  (∀ (t : TileId) (b : Fin 32) (tag : TagNo) (id c : Nat) (ret : Bool) (s : State), c ≤ s.cycle →
     let n := t.val
     let target : BankTarget := if ret then .ret else .off
     (s.bank n b.val).req = some (target, tag, id) → (s.bank n b.val).pwr = .entering ret c →
     (∀ k, k < 32 → k ≠ b.val →
       (s.bank n k).req = none ∧ ((s.bank n k).pwr = .on ∨ (s.bank n k).pwr = .ret ∨ (s.bank n k).pwr = .off)) →
     Answers (.tsBankComplete t tag) s fun s' =>
       s'.bank n b.val = { s.bank n b.val with pwr := if ret then .ret else .off, req := none } ∧
       (∀ k, k < 32 → k ≠ b.val → s'.bank n k = s.bank n k) ∧
       s'.tag n tag.val = { s.tag n tag.val with count := (s.tag n tag.val).count - 1 } ∧
       (∀ a, mget s'.mem.ts a =
         if ret = false ∧ a / 0x30000 = n ∧ bankOf (a % 0x30000 / 8) = b.val then 0 else mget s.mem.ts a) ∧
       TilesBut n s s') ∧
  (∀ (t : TileId) (b : Fin 32) (target : BankTarget) (tag : TagNo) (id c : Nat) (s : State),
     let n := t.val
     (s.bank n b.val).req = some (target, tag, id) →
     (∀ k, k < 32 → k ≠ b.val →
       (s.bank n k).req = none ∧ ((s.bank n k).pwr = .on ∨ (s.bank n k).pwr = .ret ∨ (s.bank n k).pwr = .off)) →
     (target = .on → (s.bank n b.val).pwr = .exiting c → c ≤ s.cycle → Answers (.tsBankComplete t tag) s fun s' =>
       s'.bank n b.val = { s.bank n b.val with pwr := .on, req := none, closedAt := none } ∧
       (∀ k, k < 32 → k ≠ b.val → s'.bank n k = s.bank n k) ∧
       s'.tag n tag.val = { s.tag n tag.val with count := (s.tag n tag.val).count - 1 } ∧ s'.mem = s.mem ∧ TilesBut n s s') ∧
     ((s.bank n b.val).pwr = .exiting c ∨ (∃ ret, (s.bank n b.val).pwr = .entering ret c) → s.cycle < c →
       exec (.tsBankComplete t tag) s = .next s))

/-! ### The arrays -/

/-- R272: mm.cfg loads the configuration word of the array for streams from the next cycle on; R44, R276: mm.pwr OFF
begins its 16-cycle entry, ends the stream of the array, whose flags the tile takes, and clears both sets; mm.pwr ON
begins its 256-cycle exit; a switch that names the state the array is in, or is on its way to, has no effect. R44: the
exit of the power switch ends after its 256 cycles and not before, and only where there is one. R44: a unit that has been
idle for 16 cycles is clock-gated; a unit that has not stays as it is. -/
def Obligations.ArrayControl : Prop :=
  (∀ (u : Site) (arr : Fin 2) (ra : GReg) (s : State), s.on u = true → s.chainBusy u.tile.val (slotM arr) = false →
     let n := u.tile.val
     let x := s.tile n
     let y := x.arr arr
     exec (.mmCfg u arr ra) s = .next { s with sched := s.sched ++ [(s.cycle + 1, .cfg n arr (x.gr ra))] } ∧
     (y.pwr.namesOff = false → exec (.mmPwr u arr false) s = .next s) ∧
     (y.pwr.namesOff = true → exec (.mmPwr u arr true) s = .next s) ∧
     (y.pwr.namesOff = true →
       exec (.mmPwr u arr false) s = .next (s.setTile n (x.setArr arr { y with pwr := .exiting (s.cycle + 256) }))) ∧
     (y.pwr.namesOff = false → Answers (.mmPwr u arr true) s fun t =>
       ((t.tile n).arr arr).pwr = .entering false (s.cycle + 16) ∧ ((t.tile n).arr arr).streams = [] ∧
       (∀ a set i j, i < 32 → j < 32 → tget 0 (t.tile n).acc (accKey a set i j) =
         if a = arr then 0 else tget 0 x.acc (accKey a set i j)) ∧
       (t.tile n).flags = x.flags ||| BitVec.ofNat 8 (streamFlags x arr (endStreams y s.cycle).streams) ∧
       t.tile n = { x.setArr arr { y with pwr := .entering false (s.cycle + 16), streams := [] } with
                    acc := (t.tile n).acc, flags := (t.tile n).flags } ∧
       TilesBut n s t ∧ OnlyLogs { s with tiles := t.tiles } t)) ∧
  (∀ (t : TileId) (arr : Fin 2) (s : State),
     let x := s.tile t.val
     let y := x.arr arr
     (∀ d, y.pwr = .exiting d → d ≤ s.cycle →
       exec (.arrayPowerExitDone t arr) s = .next (s.setTile t.val (x.setArr arr { y with pwr := .on }))) ∧
     (∀ d, y.pwr = .exiting d → s.cycle < d → exec (.arrayPowerExitDone t arr) s = .next s) ∧
     ((∀ d, y.pwr ≠ .exiting d) → exec (.arrayPowerExitDone t arr) s = .next s)) ∧
  (∀ (t : TileId) (arr : Fin 2) (s : State),
     let x := s.tile t.val
     let y := x.arr arr
     let idle := (∀ k r, (y.set k).ready = some r → r + 16 ≤ s.cycle) ∧ streamBusy y s.cycle = false ∧ 16 ≤ s.cycle
     let vIdle := (∀ c, x.vLast = some c → c + 16 < s.cycle) ∧ 16 ≤ s.cycle
     (idle → exec (.arrayClockGate t (.array arr)) s = .next (s.setTile t.val (x.setArr arr { y with gated := true }))) ∧
     (¬ idle → exec (.arrayClockGate t (.array arr)) s = .next s) ∧
     (vIdle → exec (.arrayClockGate t .vector) s = .next (s.setTile t.val { x with vGated := true })) ∧
     (¬ vIdle → exec (.arrayClockGate t .vector) s = .next s))

/-- R30, R42, R274: a stream that issues to an array that is ON, with operands R275 accepts, joins the streams of the
array with the configuration in force; its set is ready 74 + Kc cycles later, 33 more through the turn buffer, one
more in a debug build. A stream in progress ends in this cycle (R33). No accumulator changes; the words of its set have
fresh check bits (R408). To an array that is not ON, or with operands that R275 does not accept, it has no effect. R53,
R54, R71, R274: the oldest stream of an array, once it is done, leaves in each cell of its set the sum of its blocks in
their order, added to the cell's contents when it continues, and the tile takes the flags of those additions; every other
cell stands. A stream that is not done stays as it is. -/
def Obligations.Streams : Prop :=
  (∀ (u : Site) (arr : Fin 2) (rl rls rr rrs : GReg) (set : Fin 2) (cont : Bool) (s : State),
     s.on u = true → s.chainBusy u.tile.val (slotM arr) = false →
     let n := u.tile.val
     let x := s.tile n
     let y := x.arr arr
     let runs := y.pwr.isOn s.cycle = true ∧ streamOk y.cfg (x.gr rl) (x.gr rls) (x.gr rr) (x.gr rrs) = true
     let ready := s.cycle + 74 + acKc y.cfg + (if acTurn y.cfg then 33 else 0) + (if s.debug then 1 else 0)
     let words := eccKey placeAcc (accWord n arr set 0 0)
     (¬ runs → Answers (.mmStream u arr rl rls rr rrs set cont) s (OnlyLogs s)) ∧
     (runs → Answers (.mmStream u arr rl rls rr rrs set cont) s fun t =>
       ((t.tile n).arr arr).set set = { ready := some ready, drained := none } ∧
       ((t.tile n).arr arr).set (1 - set) = y.set (1 - set) ∧
       ((t.tile n).arr arr).streams =
         (y.streams.map fun st =>
           if st.endedAt.isNone ∧ s.cycle < st.issue + acKc st.cfg then { st with endedAt := some s.cycle } else st) ++
         [{ uid := s.uid, issue := s.cycle, cfg := y.cfg, set := set, cont := cont, left := (x.gr rl).toNat,
            leftScale := (x.gr rls).toNat, right := (x.gr rr).toNat, rightScale := (x.gr rrs).toNat,
            dbg := if s.debug then 1 else 0 }] ∧
       ((t.tile n).arr arr).pwr = y.pwr ∧ ((t.tile n).arr arr).cfg = y.cfg ∧ ((t.tile n).arr arr).gated = false ∧
       t.tile n = x.setArr arr ((t.tile n).arr arr) ∧ TilesBut n s t ∧
       (∀ w, tget 0 t.mem.ecc w = if words ≤ w ∧ w < words + 1024 then 0 else tget 0 s.mem.ecc w) ∧
       OnlyLogs { s with tiles := t.tiles, uid := s.uid + 1, mem := { s.mem with ecc := t.mem.ecc } } t)) ∧
  (∀ (t : TileId) (arr : Fin 2) (s : State),
     let x := s.tile t.val
     let y := x.arr arr
     let acc (set : Fin 2) (i j : Nat) : Nat := (tget 0 x.acc (accKey arr set i j)).toNat
     (∀ st rest, y.streams = st :: rest → st.done s.cycle = true → Answers (.streamComplete t arr) s fun s' =>
       (∀ i j, i < 32 → j < 32 → (tget 0 (s'.tile t.val).acc (accKey arr st.set i j)).toNat =
         (st.cell none i j (acc st.set i j)).1 % 2 ^ 32) ∧
       (∀ a k i j, i < 32 → j < 32 → (a ≠ arr ∨ k ≠ st.set) →
         tget 0 (s'.tile t.val).acc (accKey a k i j) = tget 0 x.acc (accKey a k i j)) ∧
       (∀ b, b < 8 → ((s'.tile t.val).flags.getLsbD b = true ↔ x.flags.getLsbD b = true ∨ st.fl.testBit b = true ∨
         ∃ i j, i < 32 ∧ j < 32 ∧ (st.cell none i j (acc st.set i j)).2.testBit b = true)) ∧
       s'.tile t.val = { x.setArr arr { y with streams := rest } with
                         acc := (s'.tile t.val).acc, flags := (s'.tile t.val).flags } ∧
       TilesBut t.val s s' ∧ s' = { s with tiles := s'.tiles }) ∧
     (∀ st rest, y.streams = st :: rest → st.done s.cycle = false → exec (.streamComplete t arr) s = .next s) ∧
     (y.streams = [] → exec (.streamComplete t arr) s = .next s))

/-! ### The Felt -/

/-- R277–R279: felt.remove and felt.copy place one action for each selected lane in this cycle, upwards, each with its 32
bytes of the run at RA when it writes; LMASK 0 is a reserved encoding. An address outside the store, or not a multiple
of 32, has no effect (R240). R126, R278: felt.inject reads 32 bytes for each selected lane, upwards from RA, and with SC the
lanes' scale bytes at RS as one access, in this cycle, for words that reach the head five cycles later, six in a debug
build: sheet words when SW is 0, with the slice of the sheet's check, which an OPEN sheet takes over its contents and is
SEALED, else scale words. An address outside the store, or one at RA that is not a multiple of 32, has no effect. -/
def Obligations.FeltOperations : Prop :=
  (∀ (u : Site) (lmask : BitVec 4) (wr : Bool) (ra : GReg) (s : State), s.on u = true →
     let n := u.tile.val
     let a := (s.tile n).gr ra
     let lanes := ([0, 1, 2, 3] : List (Fin 4)).filter fun l => lmask.getLsbD l.val
     let fits := a.toNat % 32 = 0 ∧ a.toNat + 32 * lanes.length ≤ 0x30000
     let acts (rem wr : Bool) (t : State) : Prop :=
       ∃ l : List FeltTake, l.map (·.lane) = lanes ∧
         (∀ k ∈ l, k.tile = n ∧ k.cyc = s.cycle ∧ k.remove = rem) ∧
         l.map (·.addr) = (List.range lanes.length).map (fun j => if wr then some (a.toNat + 32 * j) else none) ∧
         t = { s with felt := { s.felt with takes := s.felt.takes ++ l } }
     (lmask ≠ 0 → (wr = true → fits) → Answers (.feltRemove u lmask wr ra) s (acts true wr)) ∧
     (lmask ≠ 0 → fits → Answers (.feltCopy u lmask ra) s (acts false true)) ∧
     (lmask ≠ 0 → ¬ fits →
       Answers (.feltRemove u lmask true ra) s (OnlyLogs s) ∧ Answers (.feltCopy u lmask ra) s (OnlyLogs s)) ∧
     exec (.feltRemove u 0 wr ra) s = .refused .reservedEncoding ∧ exec (.feltCopy u 0 ra) s = .refused .reservedEncoding) ∧
  (∀ (u : Site) (lmask revs : BitVec 4) (ra rs : GReg) (sc sw : Bool) (s : State), s.on u = true →
     let n := u.tile.val
     let a := ((s.tile n).gr ra).toNat
     let b := ((s.tile n).gr rs).toNat
     let lanes := ([0, 1, 2, 3] : List (Fin 4)).filter fun l => lmask.getLsbD l.val
     let fits := a % 32 = 0 ∧ a + 32 * lanes.length ≤ 0x30000 ∧ (sc = true → b + lanes.length ≤ 0x30000)
     let due := s.cycle + if s.debug then 6 else 5
     let check (i : Nat) : Word := if (s.sheet n i).opn then crc32c (s.ts n (256 * i) 256) else (s.sheet n i).crc
     let read (lane : Fin 4) (x : Nat) : Access := .read n 4 0 [(x, 32)]
       (.felt lane revs.toNat (if sw then 2 else 1) (!sw && x / 32 % 8 == 0) sw
         (if sw then none else some (BitVec.ofNat 4 ((check (x / 256)).toNat / 16 ^ (x / 32 % 8)))) due)
     let read? (i : Nat) : Prop := sw = false ∧ ∃ k, k < lanes.length ∧ (a + 32 * k) / 256 = i
     (lmask ≠ 0 → fits → (∀ i, read? i → tget 0 s.mem.ecc (eccKey placeChk (n * 768 + i)) = 0) →
       Answers (.feltInject u lmask revs ra rs sc sw) s fun t =>
         t.mem.acc = s.mem.acc ++ (lanes.zipIdx.map fun l => read l.1 (a + 32 * l.2)) ++
           (if sc then [.read n 4 1 [(b, lanes.length)] (.feltScale lanes due)] else []) ∧
         (∀ i, i < 768 → read? i → (t.sheet n i).opn = false ∧ (t.sheet n i).crc = check i) ∧
         (∀ i, i < 768 → ¬ read? i ∨ (s.sheet n i).opn = false → t.sheet n i = s.sheet n i) ∧
         (∀ k, k < n * 768 ∨ n * 768 + 768 ≤ k → tget {} t.mem.sheets k = tget {} s.mem.sheets k) ∧
         (∀ w, tget 0 t.mem.ecc w = tget 0 s.mem.ecc w) ∧
         t = { s with mem := { s.mem with acc := t.mem.acc, sheets := t.mem.sheets, ecc := t.mem.ecc } }) ∧
     (lmask ≠ 0 → ¬ fits → Answers (.feltInject u lmask revs ra rs sc sw) s (OnlyLogs s)) ∧
     exec (.feltInject u 0 revs ra rs sc sw) s = .refused .reservedEncoding)

/-- R89, R90, R91: a word that is due at a router is placed on its lane's slot when the slot is empty and the removal it
notes, if any, has room; the rest of the lane's cycle does nothing (a debug build may report tiles that wait). R89: on
a lane where nothing is due at the router the word in the slot, if any, passes it unchanged; R81: a bit error that its hop
brought is counted and logged, corrected with one bit wrong, and with two the word goes on as received (its KIND bits may
then say that the slot is empty, R79). R90: a removal that is due takes the word it was noted for off its lane at the router, and
leaves every other word; one that is not due does nothing. The model's choice: an automatic removal checks the word as a
felt.remove does (R100 as log entries 164 and 6 read it, both DEDUCED); a loose or gather word whose CRC-4 fails is reported. -/
def Obligations.FeltRouter : Prop :=
  (∀ (t : TileId) (lane : Fin 4) (err : HopErr) (k : FeltInj) (s : State),
     let n := t.val
     let m := s.feltMode
     k.tile = n → k.lane = lane → k.cyc = s.cycle → s.feltAt n lane = none →
     (∀ j ∈ s.felt.inj, j = k ∨ ¬ (j.tile = n ∧ j.lane = lane ∧ j.cyc = s.cycle)) →
     (s.felt.inj.filter fun j => j == k) = [k] →
     (∀ r ∈ s.felt.removals, ¬ (r.tile = n ∧ r.lane = lane)) → (∀ r ∈ s.felt.takes, r.tile ≠ n) →
     (∀ g ∈ s.felt.gathers, g.tile ≠ n) → anyTap (s.tile n) lane.val s.cycle = false → s.debug = false →
     exec (.feltWordArrival t ⟨lane, err⟩) s = .next { s with felt := { s.felt with
       inj := s.felt.inj.filter fun j => j != k,
       words := s.felt.words ++
         [⟨(feltPos m n).1, lane, feltPhase m n s.cycle, k.kind, k.first, k.sw, k.chk, k.scale, k.data,
           if k.revs = 0 then none else some (n, s.cycle + k.revs * loopLen m), k.sheet⟩],
       removals := if k.revs = 0 then s.felt.removals
         else s.felt.removals ++ [⟨n, lane, s.cycle + k.revs * loopLen m⟩] } }) ∧
  (∀ (t : TileId) (lane : Fin 4) (s : State),
     (∀ r ∈ s.felt.removals, ¬ (r.tile = t.val ∧ r.lane = lane ∧ r.cyc = s.cycle)) →
     (∀ j ∈ s.felt.inj, ¬ (j.tile = t.val ∧ j.lane = lane ∧ j.cyc = s.cycle)) →
     (∀ k ∈ s.felt.takes, ¬ (k.tile = t.val ∧ k.lane = lane ∧ k.cyc = s.cycle)) →
     (∀ g ∈ s.felt.gathers, ¬ (g.tile = t.val ∧ g.cyc = s.cycle)) → anyTap (s.tile t.val) lane.val s.cycle = false →
     exec (.feltWordArrival t ⟨lane, .clean⟩) s = .next s ∧
     (s.feltAt t.val lane = none → ∀ err, exec (.feltWordArrival t ⟨lane, err⟩) s = .next s) ∧
     (s.feltAt t.val lane ≠ none →
       Answers (.feltWordArrival t ⟨lane, .corrected⟩) s (fun s' => OnlyLogs s s' ∧
         (s'.reg Reg.ERR_CE_COUNT).toNat = min 0xFFFFFFFF ((s.reg Reg.ERR_CE_COUNT).toNat + 1) ∧
         (s'.reg Reg.ERR_STATUS).getLsbD 1 = true) ∧
       ∀ a b : Nat, Answers (.feltWordArrival t ⟨lane, .uncorrectable a b⟩) s fun s' =>
         let here (w : FeltWord) : Bool := w.at (feltPos s.feltMode t.val).1 lane (feltPhase s.feltMode t.val s.cycle)
         s'.felt = { s.felt with words :=
           (s.felt.words.map fun w => if here w then (w.flip a).flip b else w).filter fun w => w.kind != 0 } ∧
         OnlyLogs { s with felt := s'.felt } s' ∧
         (s'.reg Reg.ERR_UE_COUNT).toNat = min 0xFFFFFFFF ((s.reg Reg.ERR_UE_COUNT).toNat + 1) ∧
         (s'.reg Reg.ERR_STATUS).getLsbD 2 = true)) ∧
  (∀ (t : TileId) (lane : Fin 4) (s : State),
     let due := ∃ r ∈ s.felt.removals, r.tile = t.val ∧ r.lane = lane ∧ r.cyc = s.cycle
     let here (w : FeltWord) : Bool := w.at (feltPos s.feltMode t.val).1 lane (feltPhase s.feltMode t.val s.cycle)
     let rest := s.felt.removals.filter fun r => !(r.tile == t.val && r.lane == lane && r.cyc == s.cycle)
     (∀ w, due → s.feltAt t.val lane = some w → w.till = some (t.val, s.cycle) → Answers (.feltAutoRemove t lane) s fun s' =>
       s'.felt.words = s.felt.words.filter (fun x => !here x) ∧ s'.felt.removals = rest ∧
       s'.felt = { s.felt with words := s'.felt.words, removals := rest, runs := s'.felt.runs } ∧
       (s'.tile t.val = { s.tile t.val with feltBits := (s'.tile t.val).feltBits }) ∧ TilesBut t.val s s' ∧
       OnlyLogs { s with felt := s'.felt, tiles := s'.tiles } s' ∧
       (w.kind ≠ 1 → crc4 w.data = w.chk → s' = { s with felt := s'.felt }) ∧
       (w.kind ≠ 1 → crc4 w.data ≠ w.chk → (s'.tile t.val).feltBits.getLsbD 5 = true ∧
         (s'.reg Reg.ERR_CHECK_COUNT).toNat = min 0xFFFFFFFF ((s.reg Reg.ERR_CHECK_COUNT).toNat + 1))) ∧
     (due → (∀ w, s.feltAt t.val lane = some w → w.till ≠ some (t.val, s.cycle)) →
       exec (.feltAutoRemove t lane) s = .next { s with felt := { s.felt with removals := rest } }) ∧
     (¬ due → exec (.feltAutoRemove t lane) s = .next s))

/-! ### The Couch -/

/-- R280: couch.set reads the 64 bytes of its descriptor in two cycles, the second half in the cycle after this one. An address that is not a multiple of 64 or lies
outside the store has no effect. R149: q.push reads the 32 bytes of its descriptor in the issue cycle; an address that
is not a multiple of 32 or lies outside the store has no effect. -/
def Obligations.DescriptorReads : Prop :=
  (∀ (u : Site) (epi : Fin 16) (ra : GReg) (s : State), s.on u = true → s.chainBusy u.tile.val slotD = false →
     let n := u.tile.val
     let a := ((s.tile n).gr ra).toNat
     (a % 64 = 0 → a + 64 ≤ 0x30000 → exec (.couchSet u epi ra) s =
       .next { s with
         mem := { s.mem with acc := s.mem.acc ++ [.read n 1 0 [(a, 32)] (.couchSet epi 0 s.cycle a)] },
         sched := s.sched ++
           [(s.cycle + 1, .access (.read n 1 0 [(a + 32, 32)] (.couchSet epi 1 s.cycle a)))] }) ∧
     (¬ (a % 64 = 0 ∧ a + 64 ≤ 0x30000) → Answers (.couchSet u epi ra) s (OnlyLogs s))) ∧
  (∀ (u : Site) (q : QNo) (ra : GReg) (s : State), s.on u = true →
     let n := u.tile.val
     let a := ((s.tile n).gr ra).toNat
     (a % 32 = 0 → a + 32 ≤ 0x30000 → exec (.qPush u q ra) s = .next { s with mem := { s.mem with acc :=
       s.mem.acc ++ [.read n 10 0 [(a, 32)] (.qDesc q s.cycle)] } }) ∧
     (¬ (a % 32 = 0 ∧ a + 32 ≤ 0x30000) → Answers (.qPush u q ra) s (OnlyLogs s)))

/-- R35, R42, R284: a drain with operands in range joins the Couch with the epilogue entry as it stands; row i is read
from the set 2 + i cycles later and leaves 12 + i cycles later; with E3 the elements of row i are read from the tile store 6 +
i cycles later. A drain in progress that issued less than 32 cycles ago loses the rows not read by then; one 32 cycles ago
loses none. The accumulators and the store stand. A drain with operands out of range has no effect (R283). -/
def Obligations.CouchDrain : Prop :=
  ∀ (u : Site) (arr set : Fin 2) (epi : Fin 16) (re rs ru : GReg) (s : State),
    s.on u = true → s.chainBusy u.tile.val slotD = false →
    let n := u.tile.val
    let x := s.tile n
    let e := tget CouchEntry.zero x.couch epi.val
    let rus := x.gr (Fin.ofNat 32 (ru.val + 1))
    let f := epUFmt e
    let fits := drainOk e false (x.gr re) (x.gr rs) (x.gr ru) rus = true
    (fits → Answers (.couchDrain u arr set epi re rs ru) s fun t =>
      (t.tile n).drains =
        (x.drains.map fun d => if d.cut = none ∧ s.cycle < d.issue + 32 then { d with cut := some s.cycle } else d) ++
        [{ uid := s.uid, issue := s.cycle, arr := arr, set := set, entry := e, re := (x.gr re).toNat, rs := (x.gr rs).toNat,
           ru := (x.gr ru).toNat, rus := rus.toNat, chain := none, cut := none, rows := [], us := [], uss := [] }] ∧
      t.tile n = { x.setArr arr ((x.arr arr).setSet set { (x.arr arr).set set with drained := some s.cycle }) with
                   drains := (t.tile n).drains } ∧
      (∀ i, i < 32 → (s.cycle + 2 + i, Effect.drainRow n s.uid i) ∈ t.sched ∧
        (s.cycle + 12 + i, Effect.drainOut n s.uid i) ∈ t.sched ∧
        (epE3 e = true → (s.cycle + 6 + i, Effect.access (.read n 1 0
          [((x.gr ru).toNat + rowBytes f * i, rowBytes f)] (.drainU s.uid i))) ∈ t.sched) ∧
        (epE3 e = true → isMx f = true → (s.cycle + 6 + i, Effect.access (.read n 1 1
          [(rus.toNat + i, 1)] (.drainUs s.uid i))) ∈ t.sched)) ∧
      (∃ new, t.sched = (s.sched.filter fun p => match p.2 with
            | .access a => !(a.tile == n && (t.tile n).lostU a)
            | _ => true) ++ new ∧
        new.length = 32 * (2 + (if epE3 e then 1 + (if isMx f then 1 else 0) else 0))) ∧
      TilesBut n s t ∧ OnlyLogs { s with tiles := t.tiles, sched := t.sched, uid := s.uid + 1 } t) ∧
    (¬ fits → Answers (.couchDrain u arr set epi re rs ru) s (OnlyLogs s))

/-! ### The vector unit -/

/-- R36, R42, R65–R68, R285: the two-operand forms take lane l of VD from lane l of VA and VB (and VD, for the fused
forms) after 4 cycles, as one FP32 result or, packed, as two BF16 results; the flags raised are those of the lanes.
R67, R285: vabs clears and vneg inverts bit 31 of each lane, vsel takes VA where VB is not zero and keeps VD
elsewhere, and the integer forms act on 32-bit lanes; all after 4 cycles, raising no flag. -/
def Obligations.VectorLanes : Prop :=
  (∀ (u : Site) (vd va vb : VReg) (s : State), s.on u = true → s.chainBusy u.tile.val slotV = false →
     let n := u.tile.val
     let x := s.tile n
     let lane (v : VReg) (l : Nat) : Nat := ((x.vr v).getD l 0).toNat
     let full (f : Nat → Nat → Nat → Nat × Nat) (t : State) : Prop :=
       let r (l : Nat) := f (lane va l) (lane vb l) (lane vd l)
       VectorIssues s t n x vd 4 ((List.range 32).map fun l => BitVec.ofNat 32 (r l).1)
         (BitVec.ofNat 8 ((List.range 32).foldl (fun m l => m ||| (r l).2) 0))
     let pack (f : Nat → Nat → Nat → Nat × Nat) : Nat → Nat → Nat → Nat × Nat := fun a b d =>
       let lo := f (a % 65536) (b % 65536) (d % 65536)
       let hi := f (a / 65536) (b / 65536) (d / 65536)
       (lo.1 + 65536 * hi.1, lo.2 ||| hi.2)
     let both (i : Bool → Instr) (f : FpFmt → Nat → Nat → Nat → Nat × Nat) : Prop :=
       Answers (i false) s (full (f fp32)) ∧ Answers (i true) s (full (pack (f bf16)))
     both (.vadd u vd va vb) (fun f a b _ => fAdd f a b) ∧
     both (.vsub u vd va vb) (fun f a b _ => fSub f a b) ∧
     both (.vmul u vd va vb) (fun f a b _ => fMul f a b) ∧
     both (.vfma u vd va vb) (fun f a b d => fFma f false a b d) ∧
     both (.vfnma u vd va vb) (fun f a b d => fFma f true a b d) ∧
     both (.vmin u vd va vb) (fun f a b _ => fMinMax f false false a b) ∧
     both (.vmax u vd va vb) (fun f a b _ => fMinMax f true false a b) ∧
     both (.vminn u vd va vb) (fun f a b _ => fMinMax f false true a b) ∧
     both (.vmaxn u vd va vb) (fun f a b _ => fMinMax f true true a b)) ∧
  (∀ (u : Site) (vd va vb : VReg) (s : State), s.on u = true → s.chainBusy u.tile.val slotV = false →
     let n := u.tile.val
     let x := s.tile n
     let writes (f : Word → Word → Word → Word) (t : State) : Prop :=
       VectorIssues s t n x vd 4
         ((List.range 32).map fun l => f ((x.vr va).getD l 0) ((x.vr vb).getD l 0) ((x.vr vd).getD l 0)) 0
     Answers (.vabs u vd va) s (writes fun a _ _ => a &&& 0x7FFFFFFF) ∧
     Answers (.vneg u vd va) s (writes fun a _ _ => a ^^^ 0x80000000) ∧
     Answers (.vsel u vd va vb) s (writes fun a b d => if b = 0 then d else a) ∧
     Answers (.viadd u vd va vb) s (writes fun a b _ => a + b) ∧
     Answers (.visub u vd va vb) s (writes fun a b _ => a - b) ∧
     Answers (.viand u vd va vb) s (writes fun a b _ => a &&& b) ∧
     Answers (.vior u vd va vb) s (writes fun a b _ => a ||| b) ∧
     Answers (.vixor u vd va vb) s (writes fun a b _ => a ^^^ b) ∧
     Answers (.visll u vd va vb) s (writes fun a b _ => a <<< (b.toNat % 32)) ∧
     Answers (.visrl u vd va vb) s (writes fun a b _ => a >>> (b.toNat % 32)))

/-- R285: vcmp writes all ones where the comparison of the two FP32 values holds and 0 elsewhere; a NaN compares true only
under ne and unordered, and a signalling NaN raises AF_NV. R69, R286: conversions take 4 cycles. vcvt widens the 32
elements at the bottom of VA exactly, or narrows each lane with its rounding and packs the elements at the bottom of
VD with zeros above; vcvti converts between FP32 and int32; each raises the flags of its lanes. WID 1 with a rounding is a
reserved encoding. -/
def Obligations.VectorCompareAndConvert : Prop :=
  (∀ (u : Site) (vd va vb : VReg) (c : VCmp) (s : State), s.on u = true → s.chainBusy u.tile.val slotV = false →
     let n := u.tile.val
     let x := s.tile n
     let a (l : Nat) := unpack fp32 ((x.vr va).getD l 0).toNat
     let b (l : Nat) := unpack fp32 ((x.vr vb).getD l 0).toNat
     let fl := BitVec.ofNat 8 ((List.range 32).foldl (fun m l => m ||| (a l).nv ||| (b l).nv) 0)
     Answers (.vcmp u vd va vb c) s fun t =>
       ∃ lanes, VectorIssues s t n x vd 4 lanes fl ∧ lanes.length = 32 ∧ ∀ l, l < 32 →
         (lanes.getD l 0 = 0 ∨ lanes.getD l 0 = 0xFFFFFFFF) ∧
         (((a l).isNan || (b l).isNan) = true → (lanes.getD l 0 = 0xFFFFFFFF ↔ c = .ne ∨ c = .unordered)) ∧
         (((a l).isNan || (b l).isNan) = false →
           (c = .unordered → lanes.getD l 0 = 0) ∧
           (c = .eq → (lanes.getD l 0 = 0xFFFFFFFF ↔ fvEq (a l) (b l) = true)) ∧
           (c = .ne → (lanes.getD l 0 = 0xFFFFFFFF ↔ fvEq (a l) (b l) = false)) ∧
           (c = .lt → (lanes.getD l 0 = 0xFFFFFFFF ↔ fvLt false (a l) (b l) = true)) ∧
           (c = .le → (lanes.getD l 0 = 0xFFFFFFFF ↔ fvLt false (b l) (a l) = false)))) ∧
  (∀ (u : Site) (vd va : VReg) (f : CvtFmt) (wid : Bool) (m : RMode) (s : State),
     s.on u = true → s.chainBusy u.tile.val slotV = false →
     let n := u.tile.val
     let x := s.tile n
     let a := x.vr va
     (m ≠ .rne → exec (.vcvt u vd va f true m) s = .refused .reservedEncoding) ∧
     let flags (l : List (Nat × Nat)) : Byte := BitVec.ofNat 8 (l.foldl (fun k p => k ||| p.2) 0)
     let wide := ((unpackElems (CvtFmt.code f) (fromWords a)).take 32).map fun v =>
       let y := elemVal (CvtFmt.code f) v
       ((pack fp32 .rne y).1, (pack fp32 .rne y).2 ||| y.nv)
     let narrow := a.zipIdx.map fun p => cvtVector (CvtFmt.code f) (laneRnd s n m p.2) (unpack fp32 p.1.toNat)
     let int := a.zipIdx.map fun p => if wid then fromInt32 (laneRnd s n m p.2) p.1 else toInt32 (laneRnd s n m p.2) p.1.toNat
     Answers (.vcvt u vd va f true .rne) s (fun t =>
       VectorIssues s t n x vd 4 (wide.map fun p => BitVec.ofNat 32 p.1) (flags wide)) ∧
     Answers (.vcvt u vd va f false m) s (fun t =>
       VectorIssues s t n x vd 4 (toWords (padTo (packElems (CvtFmt.code f) (narrow.map (·.1))) 128)) (flags narrow)) ∧
     Answers (.vcvti u vd va wid m) s (fun t =>
       VectorIssues s t n x vd 4 (int.map fun p => BitVec.ofNat 32 p.1) (flags int)))

/-- R65, R70, R287: vdiv, vsqrt and vtr take the long pipeline, one in 4 cycles, and their lanes are visible after 12; an
issue within the interval has no effect. R58, R285: vred combines neighbours in five levels, lane 0 takes the result
and the other lanes 0, after 10 cycles, with the flags of its combinations; one may issue in 2 cycles (R287). -/
def Obligations.VectorLongAndReduce : Prop :=
  (∀ (u : Site) (vd va vb : VReg) (f : TrFn) (s : State), s.on u = true → s.chainBusy u.tile.val slotV = false →
     let n := u.tile.val
     let x := s.tile n
     let lane (v : VReg) (l : Nat) : Nat := ((x.vr v).getD l 0).toNat
     let writes (r : Nat → Nat × Nat) (t : State) : Prop :=
       VectorIssues s t n { x with longLast := some s.cycle } vd 12 ((List.range 32).map fun l => BitVec.ofNat 32 (r l).1)
         (BitVec.ofNat 8 ((List.range 32).foldl (fun m l => m ||| (r l).2) 0))
     ((∀ k, x.longLast = some k → k + 4 ≤ s.cycle) →
       Answers (.vdiv u vd va vb) s (writes fun l => fDiv fp32 (lane va l) (lane vb l)) ∧
       Answers (.vsqrt u vd va) s (writes fun l => fSqrt fp32 (lane va l)) ∧
       Answers (.vtr u vd va f) s (writes fun l => fTrans (TrFn.fun70 f) (lane va l))) ∧
     (∀ k, x.longLast = some k → s.cycle < k + 4 →
       Answers (.vdiv u vd va vb) s (OnlyLogs s) ∧ Answers (.vsqrt u vd va) s (OnlyLogs s) ∧
       Answers (.vtr u vd va f) s (OnlyLogs s))) ∧
  (∀ (u : Site) (vd va : VReg) (m : RedFn) (s : State), s.on u = true → s.chainBusy u.tile.val slotV = false →
     let n := u.tile.val
     let x := s.tile n
     let op : Nat → Nat → Nat × Nat := match m with
       | .sum => fAdd fp32
       | .max | .maxAbs => fMinMax fp32 true false
       | .min => fMinMax fp32 false false
       | .maxNum => fMinMax fp32 true true
       | .minNum => fMinMax fp32 false true
     let a0 (i : Nat) : Nat := ((x.vr va).getD i 0).toNat % (if m = .maxAbs then 2 ^ 31 else 2 ^ 32)
     let a1 (i : Nat) : Nat := (op (a0 (2 * i)) (a0 (2 * i + 1))).1
     let a2 (i : Nat) : Nat := (op (a1 (2 * i)) (a1 (2 * i + 1))).1
     let a3 (i : Nat) : Nat := (op (a2 (2 * i)) (a2 (2 * i + 1))).1
     let a4 (i : Nat) : Nat := (op (a3 (2 * i)) (a3 (2 * i + 1))).1
     let raised (k : Nat) (v : Nat → Nat) : Nat := (List.range k).foldl (fun m i => m ||| (op (v (2 * i)) (v (2 * i + 1))).2) 0
     let fl := raised 16 a0 ||| raised 8 a1 ||| raised 4 a2 ||| raised 2 a3 ||| raised 1 a4
     ((∀ k, x.redLast = some k → k + 2 ≤ s.cycle) → Answers (.vred u vd va m) s fun t =>
       VectorIssues s t n { x with redLast := some s.cycle } vd 10
         (BitVec.ofNat 32 (op (a4 0) (a4 1)).1 :: List.replicate 31 0) (BitVec.ofNat 8 fl)) ∧
     (∀ k, x.redLast = some k → s.cycle < k + 2 → Answers (.vred u vd va m) s (OnlyLogs s)))

/-- R285: vld reads and vst writes 128, 64 or 32 bytes at RA, aligned to their size; vbc, vidx and vmvg move words between
the register files after 4 cycles; v.sr sets the stochastic tensor and base for the next cycle. An address outside the
store or misaligned has no effect. R289: v.felt hands the Felt a loose word of VA's first 32 bytes for two cycles
later, with RS[7:0] as its scale or 0x7F; v.lp sends the 128 bytes of VA to tile RA[11:0], address RB, leaving four
cycles later, and has no effect where the tile or the address is out of range. -/
def Obligations.VectorMovesAndSends : Prop :=
  (∀ (u : Site) (vd va : VReg) (rd ra rb rc : GReg) (sz : VSize) (lane : Fin 32) (s : State),
     s.on u = true → s.chainBusy u.tile.val slotV = false →
     let n := u.tile.val
     let x := s.tile n
     let k := match sz with
       | .b128 => 128
       | .b64 => 64
       | .b32 => 32
     let a := (x.gr ra).toNat
     let used (s' : State) : Prop := s'.tile n = { x with vLast := some s.cycle, vGated := false } ∧ TilesBut n s s'
     (a % k = 0 → a + k ≤ 0x30000 →
       Answers (.vld u vd ra sz) s (fun t => used t ∧
         t = { s with tiles := t.tiles, mem := { s.mem with acc := s.mem.acc ++
           [.read n 2 0 [(a, k)] (.vreg vd (s.cycle + if s.debug then 7 else 6))] } }) ∧
       Answers (.vst u va ra sz) s (fun t => used t ∧
         OnlyLogs { s with tiles := t.tiles, mem := { s.mem with acc := s.mem.acc ++
           [.write n 2 0 [(a, (fromWords (x.vr va)).take k)] 2 0 s.cycle] } } t)) ∧
     (¬ (a % k = 0 ∧ a + k ≤ 0x30000) →
       Answers (.vld u vd ra sz) s (OnlyLogs s) ∧ Answers (.vst u va ra sz) s (OnlyLogs s)) ∧
     Answers (.vbc u vd ra) s (fun t => VectorIssues s t n x vd 4 (List.replicate 32 (x.gr ra)) 0) ∧
     Answers (.vidx u vd) s (fun t => VectorIssues s t n x vd 4 ((List.range 32).map (BitVec.ofNat 32)) 0) ∧
     Answers (.vmvg u rd va lane) s (fun t => used t ∧
       t.sched = s.sched ++ [(s.cycle + 4, .gset n rd ((x.vr va).getD lane.val 0))] ∧
       OnlyLogs { s with tiles := t.tiles, sched := t.sched } t) ∧
     Answers (.vSr u ra rb rc) s (fun t => used t ∧
       t = { s with tiles := t.tiles, sched := s.sched ++ [(s.cycle + 1,
         .vsr n (x.gr ra) (BitVec.ofNat 48 ((x.gr rc).toNat % 2 ^ 16 * 2 ^ 32 + (x.gr rb).toNat)))] })) ∧
  (∀ (u : Site) (lane : Fin 4) (va : VReg) (rs ra rb : GReg) (scf : Bool) (s : State),
     s.on u = true → s.chainBusy u.tile.val slotV = false →
     let n := u.tile.val
     let x := s.tile n
     let d := (fromWords (x.vr va)).take 32
     let dest := (x.gr ra).toNat % 4096
     let a := (x.gr rb).toNat
     let used (s' : State) : Prop := s'.tile n = { x with vLast := some s.cycle, vGated := false } ∧ TilesBut n s s'
     Answers (.vFelt u lane va rs scf) s (fun t => used t ∧
       OnlyLogs { s with tiles := t.tiles, felt := { s.felt with inj := s.felt.inj ++
         [⟨n, lane, s.cycle + 2, 1, 0, 2, false, false, crc4 d,
           if scf then BitVec.ofNat 8 (x.gr rs).toNat else 0x7F, d, (0, 0)⟩] } } t) ∧
     (dest < 2304 → a % 128 = 0 → a + 128 ≤ 0x30000 → Answers (.vLp u va ra rb) s (fun t => used t ∧
       ∃ f : Flit, f.at_ = n ∧ f.cyc = s.cycle + 4 ∧ f.inp = 0 ∧ f.dest = dest ∧ f.addr = a ∧
         f.data = fromWords (x.vr va) ∧
         OnlyLogs { s with tiles := t.tiles, mesh := { s.mesh with flits := s.mesh.flits ++ [f] } } t)) ∧
     (¬ (dest < 2304 ∧ a % 128 = 0 ∧ a + 128 ≤ 0x30000) → Answers (.vLp u va ra rb) s (OnlyLogs s)))

/-! ### A cycle of the grid -/

/-- R4, R43, R238, R239, R242: a step on an empty queue is a cycle of the grid (log entry 11). In it the scheduled effects that are due
reach the registers of their tiles: of several writes of one register the last issued stands, p0 keeps reading 1, a flag word takes
every flag. An access of the cycle is served (R40, R129): a read of a word or of a vector puts it on its way to its register, with zeros
for granules of banks that are closed or taken; the bytes of a write reach the tile store but for granules of banks that are taken, and
no other byte changes. On a grid with nothing else under way one step does exactly that. -/
def Obligations.CycleEffects : Prop :=
  (∀ (s : State), s.pending = [] → step s = .next (tick s)) ∧
  (∀ (s : State), (∀ e ∈ s.dueNow, e.plain = true) →
     let t := applyDue s
     (∀ n rd v l r, s.dueNow = l ++ .gset n rd v :: r → (∀ w, .gset n rd w ∉ r) → (t.tile n).gr rd = v) ∧
     (∀ n rd, (∀ w, .gset n rd w ∉ s.dueNow) → (t.tile n).gr rd = (s.tile n).gr rd) ∧
     (∀ n pd v l r, s.dueNow = l ++ .pset n pd v :: r → (∀ w, .pset n pd w ∉ r) → (t.tile n).pr pd = (v || pd.val == 0)) ∧
     (∀ n pd, (∀ w, .pset n pd w ∉ s.dueNow) → (t.tile n).pr pd = (s.tile n).pr pd) ∧
     (∀ n vd v l r, s.dueNow = l ++ .vset n vd v :: r → v.length = 32 → (∀ w, .vset n vd w ∉ r) → (t.tile n).vr vd = v) ∧
     (∀ n vd, (∀ w, .vset n vd w ∉ s.dueNow) → (t.tile n).vr vd = (s.tile n).vr vd) ∧
     (∀ n i, (t.tile n).flags.getLsbD i = true ↔ (s.tile n).flags.getLsbD i = true ∨ ∃ m, .flags n m ∈ s.dueNow ∧ m.getLsbD i = true) ∧
     t.sched = s.sched.filter (fun e => !(e.1 ≤ s.cycle)) ∧ t.mem.ts = s.mem.ts) ∧
  (∀ (n rank tie a prod since : Nat) (d : Bytes) (s : State), prod < 8 →
     (∀ G ∈ granules a d.length, s.closedTo n (bankOf G) since = false) →
     let t := serveOne s (.write n rank tie [(a, d)] prod 0 since)
     ∀ x, mget t.mem.ts x = if n * tsSize + a ≤ x ∧ x < n * tsSize + a + d.length ∧ bankOf ((x - n * tsSize) / 8) ∉ s.usedBanks n
       then d.getD (x - (n * tsSize + a)) 0 else mget s.mem.ts x) ∧
  (∀ (n rank tie a due : Nat) (rd : GReg) (vd : VReg) (s : State),
     let got (m : Nat) : Bytes := (List.range m).map fun i =>
       let b := bankOf ((a + i) / 8)
       if s.closed n b = true ∨ b ∈ s.usedBanks n then 0 else mget s.mem.ts (n * tsSize + a + i)
     (a % 4 = 0 → let t := serveOne s (.read n rank tie [(a, 4)] (.greg rd due))
       t.sched = s.sched ++ [(due, .gset n rd (leWord (got 4)))] ∧ t.mem.ts = s.mem.ts) ∧
     (a % 128 = 0 → let t := serveOne s (.read n rank tie [(a, 128)] (.vreg vd due))
       t.sched = s.sched ++ [(due, .vset n vd (toWords (got 128)))] ∧ t.mem.ts = s.mem.ts)) ∧
  (∀ (s : State), Quiet s →
     (s.mem.acc = [] → (∀ e ∈ s.sched, e.1 ≤ s.cycle + 1 → e.2.plain = true) → ∃ t, step s = .next t ∧ t.cycle = s.cycle + 1 ∧
       let u := applyDue { s with cycle := s.cycle + 1 }
       ∀ n, (∀ rd, (t.tile n).gr rd = (u.tile n).gr rd) ∧ (∀ pd, (t.tile n).pr pd = (u.tile n).pr pd) ∧
         (∀ vd, (t.tile n).vr vd = (u.tile n).vr vd) ∧ (t.tile n).flags = (u.tile n).flags) ∧
     (∀ n rank a prod since d, s.mem.acc = [.write n rank 0 [(a, d)] prod 0 since] → s.sched = [] → prod < 8 →
       (∀ G ∈ granules a d.length, s.closedTo n (bankOf G) since = false) → ∃ t, step s = .next t ∧
         ∀ x, mget t.mem.ts x = if n * tsSize + a ≤ x ∧ x < n * tsSize + a + d.length then d.getD (x - (n * tsSize + a)) 0
           else mget s.mem.ts x) ∧
     (∀ n rank a rd due, s.mem.acc = [.read n rank 0 [(a, 4)] (.greg rd due)] → s.sched = [] → a % 4 = 0 → s.cycle + 1 < due →
       s.closed n (bankOf (a / 8)) = false → ∃ t, step s = .next t ∧
         t.sched = [(due, .gset n rd (leWord (mread s.mem.ts (n * tsSize + a) 4)))]))

/-! ### The mesh and the reservoirs -/

/-- R180: from any tile to any other the next router of a route exists and is nearer, and the cycles of its hop are what
the distance falls by: one a hop, and six more over a seam between polders. R133, R180, R290: mesh.send and rv.write read two halves of each sheet in consecutive cycles, two cycles a sheet, for
the local port; rv.read sends one request a sheet. Operands out of range have no effect. -/
def Obligations.MeshTransfers : Prop :=
  (∀ (a b : TileId), a ≠ b → ∃ m, neighbour a.val (routePort a.val b.val) = some m ∧ m < 2304 ∧
    meshDist m b.val + hopCycles a.val m = meshDist a.val b.val ∧
    hopCycles a.val m = (if polderOf a.val = polderOf m then 1 else 7)) ∧
  (∀ (u : Site) (r1 r2 r3 : GReg) (lev : Fin 4) (len : Fin 64) (s : State), s.on u = true →
    let n := u.tile.val
    let x := s.tile n
    let d := if s.debug then 1 else 0
    let a := (x.gr r2).toNat
    let reads (sink : Nat → Nat → Sink) (t : State) : Prop :=
      (∀ j, j ≤ len.val → ∀ h, h < 2 →
        let acc := Access.read n 6 0 [(a + 256 * j + 128 * h, 128)] (sink j h)
        if j = 0 ∧ h = 0 then t.mem.acc = s.mem.acc ++ [acc]
        else (s.cycle + 2 * j + h, Effect.access acc) ∈ t.sched) ∧
      t.sched.length = s.sched.length + 2 * len.val + 1 ∧ t.mem = { s.mem with acc := t.mem.acc }
    (let dest := (x.gr r1).toNat
     let line := (x.gr r3).toNat
     (dest < 2304 → dest ≠ n → a % 256 = 0 → a + 256 * (len.val + 1) ≤ 0x30000 → line + len.val + 1 ≤ 768 →
      Answers (.meshSend u r1 r2 r3 len) s fun t =>
        reads (fun j h => .send dest (line + j) h (s.cycle + 6 + 2 * j + h + d)) t ∧
        t = { s with mem := t.mem, sched := t.sched }) ∧
     (¬ (dest < 2304 ∧ dest ≠ n ∧ a % 256 = 0 ∧ a + 256 * (len.val + 1) ≤ 0x30000 ∧ line + len.val + 1 ≤ 768) →
      Answers (.meshSend u r1 r2 r3 len) s (OnlyLogs s))) ∧
    (let off := (x.gr r1).toNat
     let fits := off % 256 = 0 ∧ a % 256 = 0 ∧ a + 256 * (len.val + 1) ≤ 0x30000
     (fits → Answers (.rvWrite u lev r1 r2 len) s fun t =>
        reads (fun j h => .rvw lev (off + 256 * j) h (s.uid + j) (s.cycle + 6 + 2 * j + h + d)) t ∧
        t = { s with mem := t.mem, sched := t.sched, uid := s.uid + len.val + 1 }) ∧
     (fits → exec (.rvRead u lev r1 r2 len) s = .next { s with mesh := { s.mesh with
        flits := s.mesh.flits ++ (List.range (len.val + 1)).map fun j =>
          ({ at_ := n, cyc := s.cycle + 2 + 2 * j, inp := 0, unit := 3, edge := some lev, dest := n, kind := 1, last := true,
             addr := a + 256 * j, off := off + 256 * j, src := n } : Flit) } }) ∧
     (¬ fits → Answers (.rvWrite u lev r1 r2 len) s (OnlyLogs s) ∧ Answers (.rvRead u lev r1 r2 len) s (OnlyLogs s))))

/-- R180, R181: the one scheduled flit at a router goes to the next router of its route when the output is free and no
seam is shut, or, at its destination, to the tile store two cycles later; where the output is taken it is discarded,
and its half of a sheet is written as zeros in the cycle it was due; at a shut seam it is discarded and counted (R229). R175:
a bit error that its hop brought is counted, and the flit goes on as received: with two bits wrong, in its data or its check
as the model shows them (log entry 165). R184, R186: a partial at the router of
its context joins the queue of its input, or is discarded where the queue is full or the context not declared with that
input. R184: a reduction context with a flit at the head of both queues takes both and sends their sums element by element,
each rounded once, three cycles after the later one arrived, by its output; with a queue empty it does nothing. -/
def Obligations.MeshRouters : Prop :=
  (∀ (t : TileId) (inp : MPort) (err : HopErr) (f : Flit) (s : State),
     let n := t.val
     let port := routePort n f.dest
     let g := match err with
       | .uncorrectable a b => if f.comesIn s n (mportCode inp) then (f.flip a).flip b else f
       | _ => f
     s.mesh.flits = [f] → f.at_ = n → f.cyc ≤ s.cycle → f.vc1 = false → f.edge = none → f.kind = 0 →
     (∀ m, outputTaken n port s = false → neighbour n port = some m → s.seamShut n m = false →
       Answers (.meshFlitArrival ⟨t, inp, err⟩) s fun s' =>
         s'.mesh.flits = [{ g with at_ := m, cyc := s.cycle + hopCycles n m, inp := opposite port }] ∧
         s'.mem = s.mem ∧ s'.sched = s.sched ∧ TilesBut n s s') ∧
     (∀ m, outputTaken n port s = false → neighbour n port = some m → s.seamShut n m = true →
       Answers (.meshFlitArrival ⟨t, inp, err⟩) s fun s' =>
         s'.mesh.flits = [] ∧ s'.mem = s.mem ∧ s'.sched = s.sched ∧ TilesBut n s s' ∧
         (s'.reg Reg.CLK_SHUTDROP_COUNT).toNat = min 0xFFFFFFFF ((s.reg Reg.CLK_SHUTDROP_COUNT).toNat + 1)) ∧
     (outputTaken n port s = false → f.dest = n → Answers (.meshFlitArrival ⟨t, inp, err⟩) s fun s' =>
         s'.mesh.flits = [] ∧ s'.mem = s.mem ∧ TilesBut n s s' ∧
         s'.sched = s.sched ++ [(s.cycle + 2, .access (.write n 5 0 [(f.addr, g.data)] 8 g.chk s.cycle))]) ∧
     (outputTaken n port s = true → Answers (.meshFlitArrival ⟨t, inp, err⟩) s fun s' =>
         s'.mesh.flits = [] ∧ s'.mem = s.mem ∧ TilesBut n s s' ∧ (s'.tile n).meshBits.getLsbD 0 = true ∧
         s'.sched = s.sched ++ [(s.cycle + meshDist n f.dest + 2,
           .access (.write f.dest 5 0 [(f.addr, List.replicate 128 0)] 8 g.chk s.cycle))]) ∧
     (f.inp = mportCode inp → f.inp ≠ 0 →
       Answers (.meshFlitArrival ⟨t, inp, .corrected⟩) s (fun s' =>
         (s'.reg Reg.ERR_CE_COUNT).toNat = min 0xFFFFFFFF ((s.reg Reg.ERR_CE_COUNT).toNat + 1)) ∧
       ∀ a b : Nat, Answers (.meshFlitArrival ⟨t, inp, .uncorrectable a b⟩) s (fun s' =>
         (s'.reg Reg.ERR_UE_COUNT).toNat = min 0xFFFFFFFF ((s.reg Reg.ERR_UE_COUNT).toNat + 1)))) ∧
  (∀ (t : TileId) (inp : MPort) (err : HopErr) (f : Flit) (s : State),
     let n := t.val
     let x := s.ctx n f.rid
     let g := match err with
       | .uncorrectable a b => if f.comesIn s n (mportCode inp) then (f.flip a).flip b else f
       | _ => f
     let has := x.decl = true ∧ (x.ina = f.inp ∨ x.inb = f.inp)
     let joins (x' : RCtx) : Prop := Answers (.meshFlitArrival ⟨t, inp, err⟩) s fun s' =>
       s'.ctx n f.rid = x' ∧ s'.mesh.flits = [] ∧ s'.mem = s.mem ∧ s'.sched = s.sched ∧ TilesBut n s s'
     s.mesh.flits = [f] → f.at_ = n → f.cyc ≤ s.cycle → f.vc1 = true → f.inp < 8 → f.dest = n →
     (has → x.inb ≠ f.inp → x.qa.length < 4 → joins { x with qa := x.qa ++ [(g.data, g.chk, s.cycle)] }) ∧
     (has → x.ina ≠ f.inp → x.qb.length < 4 → joins { x with qb := x.qb ++ [(g.data, g.chk, s.cycle)] }) ∧
     ((¬ has ∨ (x.ina = f.inp ∧ x.inb ≠ f.inp ∧ 4 ≤ x.qa.length) ∨ (x.ina ≠ f.inp ∧ x.inb = f.inp ∧ 4 ≤ x.qb.length)) →
       joins x ∧ Answers (.meshFlitArrival ⟨t, inp, err⟩) s fun s' => (s'.tile n).meshBits.getLsbD 2 = true)) ∧
  (∀ (t : TileId) (k : Fin 8) (a b : Bytes × Nat × Nat) (ra rb : List (Bytes × Nat × Nat)) (s : State),
     let n := t.val
     let x := s.ctx n k.val
     (x.qa = a :: ra → x.qb = b :: rb → Answers (.rctxAdd t k) s fun s' =>
       (s'.ctx n k.val).qa = ra ∧ (s'.ctx n k.val).qb = rb ∧ s'.mem = s.mem ∧ TilesBut n s s' ∧
       ∃ f : Flit, s'.mesh.flits = s.mesh.flits ++ [f] ∧ f.at_ = n ∧ f.inp = 8 + k.val ∧ f.out = x.out ∧ f.vc1 = true ∧
         f.cyc = max s.cycle (max a.2.2 b.2.2 + 3) ∧ f.chk = crc16 f.data ∧
         f.data = fromWords (((toWords a.1).zip (toWords b.1)).map fun p =>
           BitVec.ofNat 32 (accumulate (some p.1.toNat) (unpack fp32 p.2.toNat)).1)) ∧
     ((x.qa = [] ∨ x.qb = []) → exec (.rctxAdd t k) s = .next s))

/-- R178, R182: the head flit of a VC2 or VC3 buffer that is granted its output leaves when the next buffer holds a credit,
for that buffer, or for its destination; without a grant or a credit, or before it is at the router, nothing moves. R187: of a
multicast flit a copy leaves, and the flit stays at the head while it wants other outputs. R39, R182, R183: at its tile a
flit of sheet data enters the deposit buffer, to be written two cycles later at the earliest: the first of a sheet keeps room
for the second, which completes it. R129: where a bank that it has a granule in is closed it is dropped and counted, and queue
data halts its queue. R133, R151, R165: at a levee crossing the request of a queue's sheet reaches its
controller 4 cycles later, the last flit of a write 24 cycles later; queue data enters the deposit buffer of its tile, unless a
fallback or a halt has withdrawn its sheet, or goes to the engine that asked for it, as a sheet it holds two cycles after its
second flit (R190, R200; log entry 181). R175: a bit error is counted, and two wrong bits go on as received (log entry 165). -/
def Obligations.UnscheduledFlits : Prop :=
  (∀ (t : TileId) (inp : MPort) (vc3 : Bool) (err : HopErr) (f : VFlit) (out : Nat) (s : State),
     let n := t.val
     let p := mportCode inp
     let rest := (vOuts n f).drop 1
     let g := if p = 0 then f else f.received err
     let copy := if f.kind = 7 then mcCopy g out else g
     let x := f.qref.getD (0, 0, 0)
     let shut := closedBank s n (granules f.addr (if g.data.length = 128 then 256 else g.data.length)) s.cycle
     let moves (P : State → Prop) : Prop := Answers (.vc2FlitForward t inp ⟨vc3, err⟩) s fun s' =>
       s'.vb n p vc3 = (if rest = [] then (s.vb n p vc3).drop 1 else { g with outs := some rest } :: (s.vb n p vc3).drop 1) ∧
       s'.mem = s.mem ∧ s'.tiles = s.tiles ∧ P s'
     let joins (P : DepWrite → Prop) : Prop := moves fun s' => ∃ w, s'.dep n = s.dep n ++ [w] ∧ w.addr = f.addr ∧ w.data = g.data ∧
       w.since = s.cycle + 2 ∧ w.left = none ∧ P w
     let offCount (s' : State) : Prop :=
       (s'.reg Reg.MEM_OFFWRITE_COUNT).toNat = min 0xFFFFFFFF ((s.reg Reg.MEM_OFFWRITE_COUNT).toNat + 1) ∧ s'.mem = s.mem
     (vHead s n p vc3 = none → exec (.vc2FlitForward t inp ⟨vc3, err⟩) s = .next s) ∧
     (vHead s n p vc3 = some (f, out) →
       (vGranted s n p out vc3 = false ∨ vCredit s n out f vc3 = false → exec (.vc2FlitForward t inp ⟨vc3, err⟩) s = .next s) ∧
       (vGranted s n p out vc3 = true → vCredit s n out f vc3 = true →
         (p ≠ 0 → err = .corrected → moves fun s' =>
           (s'.reg Reg.ERR_CE_COUNT).toNat = min 0xFFFFFFFF ((s.reg Reg.ERR_CE_COUNT).toNat + 1)) ∧
         (∀ m, neighbour n out = some m → s.seamShut n m = false → m < 2304 → moves fun s' =>
           s'.vb m (opposite out) vc3 = s.vb m (opposite out) vc3 ++ [{ copy with since := s.cycle + hopCycles n m }] ∧
           (err = .clean → s'.regs = s.regs)) ∧
         (out = 0 → f.kind = 0 → shut = none → g.data.length ≠ 128 → joins fun w => w.part = true) ∧
         (out = 0 → f.kind = 0 → shut = none → g.data.length = 128 → f.last = false →
           joins fun w => w.part = false ∧ w.size = 256 ∧ w.chk = some (BitVec.ofNat 32 g.chk)) ∧
         (out = 0 → f.kind = 0 → shut ≠ none → (g.data.length ≠ 128 ∨ f.last = false) →
           Answers (.vc2FlitForward t inp ⟨vc3, err⟩) s fun s' => s'.dep n = s.dep n ∧ offCount s') ∧
         (out = 0 → f.kind = 0 → g.data.length = 128 → f.last = true → moves fun s' =>
           s'.dep n = depJoin x f.addr g.data g.chk (s.cycle + 2) (s.dep n) ∧
           s'.rf Reg.MESH_VC2_MAX 15 0 = max (s.rf Reg.MESH_VC2_MAX 15 0) (min 0xFFFF (s.cycle + 2 - f.born))) ∧
         (∀ q uid j e, out = 0 → f.kind = 2 → f.qref = some (q, uid, j) → s.ent? n q uid = some e →
           (e.fell = none → j ∈ e.taken → e.kind ≠ .pulpIn → g.data.length = 128 → f.last = false →
             (shut = none → joins fun w => w.writer = 1 ∧ w.q = q ∧ w.uid = uid ∧ w.sheet = j) ∧
             (shut ≠ none → Answers (.vc2FlitForward t inp ⟨vc3, err⟩) s fun s' => s'.halted n q = true ∧ offCount s' ∧
               ∀ w ∈ s'.dep n, ¬ (w.writer = 1 ∧ w.q = q ∧ w.uid = uid ∧ j ≤ w.sheet))) ∧
           (e.fell = none → j ∈ e.taken → e.kind ≠ .pulpIn → g.data.length = 128 → f.last = true → moves fun s' =>
             s'.dep n = depJoin (q, uid, j) f.addr g.data g.chk (s.cycle + 2) (s.dep n)) ∧
           (e.fell = none → j ∈ e.taken → e.kind = .pulpIn →
             (f.last = false → moves fun s' => s'.dep n = s.dep n ∧
               s'.ent? n q uid = some { e with src := tput e.src j (g.data, 0) }) ∧
             (f.last = true → moves fun s' => s'.dep n = s.dep n ∧
               (s'.pl n).cache = tput (s.pl n).cache (e.d.va / 256) (s.cycle + 2, (tget ([], 0) e.src j).1 ++ g.data))) ∧
           (e.fell ≠ none ∨ j ∉ e.taken → moves fun s' => s'.dep n = s.dep n)) ∧
         (∀ q uid j e, out ≠ 0 → neighbour n out = none → f.kind = 2 → f.qref = some (q, uid, j) → f.last = true →
           s.ent? f.src q uid = some e → e.skip ≤ j → j < e.next → moves fun s' =>
             s'.ent? f.src q uid =
               some { e with atCtl := tput e.atCtl j (s.cycle + if e.d.op = 0 then 4 else 24) })))) ∧
  (∀ (of : Nat × Nat × Nat) (addr chk since : Nat) (data : Bytes) (w : DepWrite) (r : List DepWrite), w.size = 256 →
     w.data.length = 128 → w.addr + 128 = addr → (w.q, w.uid, w.sheet) = of → depJoin of addr data chk since (w :: r) =
       { w with data := w.data ++ data, since := since,
                chk := w.chk.map fun c => BitVec.ofNat 32 (c.toNat % 65536 + chk * 65536) } :: r)

/-! ### Queues and external memory -/

/-- R151: a translation of the first descriptor with sheets to release that succeeds releases the sheets up to the end of
the page, in ascending order, at the page's consecutive addresses. No byte of a tile store, a reservoir or HBM
changes. A halted queue translates nothing (R165), nor does one with no sheet to release. R151, R158: a sheet of a read that is
the first of those that wait at its controller, and that nothing holds, leaves over the levee crossing as two flits, which
carry its data and its check and wait at the port of its edge link 24 cycles later. A sheet of a read or a write
with one before it in the order of D, tile, queue and sheet is not served, nor is one that is held (R332). -/
def Obligations.QueueTransfers : Prop :=
  (∀ (t : TileId) (q : QNo) (e : QEnt) (base pa : Nat) (s : State),
     let n := t.val
     let k := s.running.getD 0
     let va := base + 256 * e.next
     s.halted n q.val = false → toRelease s n q.val = some e → (∀ x ∈ s.qEnts n q.val, x.uid = e.uid → x = e) →
     (e.d.wv = true → ∀ x ∈ s.que.q, ∀ y ∈ x.2, y.kind ≠ .wvClaim e.d.entry ∧ ∀ v, y.kind ≠ .wvPin e.d.entry v) →
     descBase s k e.d = some base → translate s k va e.d.right = .pa pa →
     Answers (.queueTranslate t q) s fun s' =>
       (∃ e', s'.ent? n q.val e.uid = some e' ∧ e'.d = e.d ∧ e'.done = e.done ∧ e'.released = e.released ++
         (List.range (min (e.d.len - e.next) (pageLeft s k va / 256))).map fun i => pa + 256 * i) ∧
       (∀ uid, uid ≠ e.uid → s'.ent? n q.val uid = s.ent? n q.val uid) ∧
       (∀ m p, m * 8 + p ≠ n * 8 + q.val → s'.qEnts m p = s.qEnts m p) ∧
       s'.mem.ts = s.mem.ts ∧ s'.mem.hbm = s.mem.hbm ∧ s'.mem.rsv = s.mem.rsv) ∧
  (∀ (t : TileId) (q : QNo) (s : State), toRelease s t.val q.val = none →
     exec (.queueTranslate t q) s = .next s) ∧
  (∀ (t : TileId) (q : QNo) (e : QEnt) (s : State), s.halted t.val q.val = true → toRelease s t.val q.val = some e →
     (e.d.wv = true → ∀ x ∈ s.que.q, ∀ y ∈ x.2, y.kind ≠ .wvClaim e.d.entry ∧ ∀ v, y.kind ≠ .wvPin e.d.entry v) →
     exec (.queueTranslate t q) s = .next s) ∧
  (∀ (t : TileId) (q : QNo) (tag : TagNo) (d : Fin 8) (j : Fin 768) (e : QEnt) (s : State),
     let n := t.val
     let k := s.running.getD 0
     let pa := e.pa j.val
     let l := leveeOf pa
     let r := edgeTile n l
     let held := readHeld s k ((descBase s k e.d).getD 0 + 256 * j.val) e.d.wv e.d.ver.toNat
     (liveSheet s n q.val tag.val d.val j.val true = none → exec (.queueSheetReturn t q tag ⟨d, j⟩) s = .next s) ∧
     (liveSheet s n q.val tag.val d.val j.val true = some e →
       (servedNext s n q.val e j.val = false ∨ held = true → exec (.queueSheetReturn t q tag ⟨d, j⟩) s = .next s) ∧
       (servedNext s n q.val e j.val = true → held = false → Answers (.queueSheetReturn t q tag ⟨d, j⟩) s fun s' =>
         (∃ f g : VFlit, s'.inb r (edgePort l) = s.inb r (edgePort l) ++ [f, g] ∧
           f.data ++ g.data = s.hbmSheet pa ∧ f.data.length = 128 ∧ f.last = false ∧ g.last = true ∧
           f.chk + 65536 * g.chk = (s.hbmCheck pa).toNat ∧
           (∀ x ∈ [f, g], x.dest = n ∧ x.kind = 2 ∧ x.qref = some (q.val, e.uid, j.val) ∧ x.since = s.cycle + 24 ∧ x.born = s.cycle + 24)) ∧
         s'.ent? n q.val e.uid = some { e with taken := e.taken ++ [j.val] } ∧
         s'.mem.ts = s.mem.ts ∧ s'.mem.hbm = s.mem.hbm ∧ s'.mem.rsv = s.mem.rsv ∧ s'.tiles = s.tiles))) ∧
  (∀ (t m : TileId) (q p : QNo) (tag : TagNo) (d : Fin 8) (j : Fin 768) (i : Nat) (e x : QEnt) (rd : Bool) (s : State),
     liveSheet s t.val q.val tag.val d.val j.val rd = some e →
     x ∈ s.qEnts m.val p.val → x.waitsAt s.cycle i = true → channelOf (x.pa i) = channelOf (e.pa j.val) →
     x.dl < e.dl ∨ (x.dl = e.dl ∧ (m.val < t.val ∨ (m = t ∧ (p.val < q.val ∨ (p = q ∧ i < j.val))))) →
     exec (if rd then .queueSheetReturn t q tag ⟨d, j⟩ else .hbmSheetCommit t q tag ⟨d, j⟩) s = .next s)

/-- R39, R126: the oldest entry of the deposit buffer that is a whole sheet, with every bank it touches free, is
written at its address and leaves the sheet SEALED with the check it brought; no other byte of any store changes. Where the
bank of a granule is taken in this cycle that granule waits. Before its cycle, or while the second half of its sheet is still
to come, the entry waits. R129: what the buffer has accepted is written though its bank has closed since. R152: a
released sheet of a write that was read from the tile store and has reached its controller, as the first of those that wait
there (R158), is committed to HBM at its physical address with its check; no other byte of HBM, a reservoir or a tile
store changes. -/
def Obligations.SheetCommits : Prop :=
  (∀ (t : TileId) (w : DepWrite) (rest : List DepWrite) (c : Word) (s : State),
     let n := t.val
     let gs := granules w.addr 256
     s.dep n = w :: rest →
     (s.cycle < w.since ∨ w.data.length < w.size → exec (.depositWrite t) s = .next s) ∧
     (w.since ≤ s.cycle → w.size ≤ 256 → w.left = none → w.part = false → w.chk = some c → w.data.length = 256 →
       w.addr % 256 = 0 → w.addr + 256 ≤ 0x30000 → (tget ({} : Pulp) s.pulp n).outq = [] →
       ((∀ g ∈ gs, bankOf g ∉ s.usedBanks n) → Answers (.depositWrite t) s fun s' =>
         s'.dep n = rest ∧ s'.sheet n (w.addr / 256) = { crc := c } ∧
         (∀ a, mget s'.mem.ts a =
           if n * 0x30000 + w.addr ≤ a ∧ a < n * 0x30000 + w.addr + 256 then w.data.getD (a - (n * 0x30000 + w.addr)) 0
           else mget s.mem.ts a) ∧
         s'.mem.hbm = s.mem.hbm ∧ s'.mem.rsv = s.mem.rsv ∧ s'.tiles = s.tiles) ∧
       ((∃ g ∈ gs, bankOf g ∈ s.usedBanks n) → Answers (.depositWrite t) s fun s' =>
         s'.dep n = { w with left := some (gs.filter fun g => decide (bankOf g ∈ s.usedBanks n)) } :: rest ∧
         s'.sheet n (w.addr / 256) = s.sheet n (w.addr / 256) ∧
         (∀ a, mget s'.mem.ts a =
           if n * 0x30000 + w.addr ≤ a ∧ a < n * 0x30000 + w.addr + 256 ∧
               bankOf ((a - n * 0x30000) / 8) ∉ s.usedBanks n then
             w.data.getD (a - (n * 0x30000 + w.addr)) 0 else mget s.mem.ts a) ∧ s'.tiles = s.tiles))) ∧
  (∀ (t : TileId) (q : QNo) (tag : TagNo) (i : Fin 8) (j : Fin 768) (e : QEnt) (d : Bytes) (c : Word) (s : State),
     let n := t.val
     let pa := e.pa j.val
     (liveSheet s n q.val tag.val i.val j.val false = none → exec (.hbmSheetCommit t q tag ⟨i, j⟩) s = .next s) ∧
     (liveSheet s n q.val tag.val i.val j.val false = some e →
       (servedNext s n q.val e j.val = false → exec (.hbmSheetCommit t q tag ⟨i, j⟩) s = .next s) ∧
       (servedNext s n q.val e j.val = true → e.kind = .xfer → e.d.op = 1 → tget ([], 0) e.src j.val = (d, c) →
         d.length = 256 → pa % 256 = 0 → Answers (.hbmSheetCommit t q tag ⟨i, j⟩) s fun s' =>
           s'.hbmSheet pa = d ∧ s'.hbmCheck pa = c ∧
           (∀ a, (a < pa ∨ pa + 256 ≤ a) → mget s'.mem.hbm a = mget s.mem.hbm a) ∧
           s'.mem.ts = s.mem.ts ∧ s'.mem.rsv = s.mem.rsv ∧ s'.tiles = s.tiles)))

/-- R161: the first descriptor past its deadline is marked as missed and counted once; with no fallback, or in a halted queue
(R165; log entry 136), its transfer goes on as it is. With the shadow fallback the sheets not yet written are cancelled and come
from the shadow, the first request two cycles later and one each second cycle (R133, R162). With the defer
fallback the sheets not yet released are withdrawn, and the descriptor leaves its queue once those released are committed, with
KIND 2 and the first sheet withdrawn in its tag (R161; where all were released, log entry 171). Where none is late nothing happens. R332: a held sheet is released once its condition has cleared.
R160: HBM_REFRESH_SWITCH shows 2x refresh of a stack in its bit of QUE_STATUS above 85 °C, and 1x below 82 °C, and does nothing
at other temperatures; the model takes the sensor of the stack for its dies (log entry 148). -/
def Obligations.QueueEvents : Prop :=
  (∀ (t : TileId) (q : QNo) (e : QEnt) (s : State),
     let n := t.val
     let counted (s' : State) : Prop :=
       (s'.reg Reg.QUE_MISS_COUNT).toNat = min 0xFFFFFFFF ((s.reg Reg.QUE_MISS_COUNT).toNat + 1) ∧
       (s'.reg Reg.QUE_STATUS).getLsbD 0 = true ∧ s'.mem = s.mem ∧ s'.tiles = s.tiles
     let cut := (rangeFrom e.skip (e.d.len - e.skip)).filter fun j => !e.done.contains j
     (lateEntry s n q.val = none → exec (.deadlineExpiry t q) s = .next s) ∧
     (lateEntry s n q.val = some e → e.d.fb = 0 ∨ e.d.fb = 3 ∨ s.halted n q.val = true → (∀ x ∈ s.qEnts n q.val, x.uid = e.uid → x = e) →
       Answers (.deadlineExpiry t q) s fun s' =>
         s'.ent? n q.val e.uid = some { e with missed := true } ∧ counted s' ∧ s'.sched = s.sched) ∧
     (lateEntry s n q.val = some e → e.d.fb = 1 → s.halted n q.val = false → (∀ x ∈ s.qEnts n q.val, x.uid = e.uid → x = e) →
       Answers (.deadlineExpiry t q) s fun s' =>
         s'.ent? n q.val e.uid =
           some { e with missed := true, fell := some (cut.headD e.d.len), taken := cut, held := [] } ∧ counted s' ∧
         (s'.reg Reg.QUE_FALLBACK_COUNT).toNat = min 0xFFFFFFFF ((s.reg Reg.QUE_FALLBACK_COUNT).toNat + 1) ∧
         s'.sched = s.sched ++ (cut.zipIdx.map fun x => (s.cycle + 2 + 2 * x.2, Effect.shadow n q.val e.uid x.1)) ∧
         s'.dep n = (s.dep n).filter fun w => !(w.writer == 1 && w.q == q.val && w.uid == e.uid)) ∧
     (lateEntry s n q.val = some e → e.d.fb = 2 → e.d.op = 2 → s.halted n q.val = false →
       (∀ x ∈ s.qEnts n q.val, x.uid = e.uid → x = e) → Answers (.deadlineExpiry t q) s fun s' =>
         let whole := ∀ j, e.skip ≤ j → j < e.skip + e.released.length → j ∈ e.done
         counted s' ∧ s'.sched = s.sched ∧
         (s'.reg Reg.QUE_FALLBACK_COUNT).toNat = min 0xFFFFFFFF ((s.reg Reg.QUE_FALLBACK_COUNT).toNat + 1) ∧
         (¬ whole → s'.ent? n q.val e.uid = some { e with missed := true, fell := some e.next } ∧
           s'.tag n e.d.tag.val = s.tag n e.d.tag.val) ∧
         (whole → s'.qEnts n q.val = (s.qEnts n q.val).filter (fun x => x.uid != e.uid) ∧
           s'.tag n e.d.tag.val = { count := (s.tag n e.d.tag.val).count - (if e.kind = .xfer then 1 else 0),
                                    kind := 2, first := e.next }))) ∧
  (∀ (t : TileId) (q : QNo) (tag : TagNo) (d : Fin 8) (j : Fin 768) (e : QEnt) (s : State),
     let n := t.val
     let holds := readHeld s (s.running.getD 0) ((descBase s (s.running.getD 0) e.d).getD 0 + 256 * j.val) e.d.wv e.d.ver.toNat
     (liveSheet s n q.val tag.val d.val j.val true = some e → (∀ x ∈ s.qEnts n q.val, x.uid = e.uid → x = e) →
       (holds = false → Answers (.heldReadRelease t q tag ⟨d, j⟩) s fun s' =>
         (∃ e', s'.ent? n q.val e.uid = some e' ∧ j.val ∉ e'.held ∧ (∀ i, i ≠ j.val → (i ∈ e'.held ↔ i ∈ e.held)) ∧
           e' = { e with held := e'.held }) ∧
         s' = { s with que := { s.que with q := s'.que.q } }) ∧
       (holds = true → exec (.heldReadRelease t q tag ⟨d, j⟩) s = .next s)) ∧
     (liveSheet s n q.val tag.val d.val j.val true = none → exec (.heldReadRelease t q tag ⟨d, j⟩) s = .next s)) ∧
  (∀ (k : Fin 12) (hot : Bool) (s : State),
     let temp := (s.temp (20 + k.val)).toInt
     let crossed := if hot then 64 * 85 < temp else temp < 64 * 82
     (crossed → Answers (.hbmRefreshSwitch k hot) s fun s' =>
       (∀ b, b < 32 → (s'.reg Reg.QUE_STATUS).getLsbD b =
         if b = 16 + k.val then hot else (s.reg Reg.QUE_STATUS).getLsbD b) ∧
       (∀ r, r ≠ Reg.QUE_STATUS → s'.reg r = s.reg r) ∧ s' = { s with regs := s'.regs }) ∧
     (¬ crossed → exec (.hbmRefreshSwitch k hot) s = .next s))

/-- R42, R292: a weight-version operation with an entry below 4,096 reaches its queue in the next cycle; with another
entry it has no effect. R112, R114, R115: what the four operations do to the copies of their entry when nothing is in
their way: a pin counts on the READY copy of its version, an unpin takes one off, a claim makes the copy that does not
hold the newest version WRITING, a publish makes the WRITING copy READY with the next version. R112, R114, R292: a
waiting pin whose version has been published, and the oldest waiting claim once its copy has lost its pins, leave their queue
with their tag counted down and act on their entry; an operation that must still wait does nothing. A waiting claim whose copy
another claim has taken fails (log entry 142). -/
def Obligations.WeightVersions : Prop :=
  (∀ (u : Site) (q : QNo) (re rv : GReg) (tag : TagNo) (s : State), s.on u = true →
     let n := u.tile.val
     let e := ((s.tile n).gr re).toNat
     let v := ((s.tile n).gr rv).toNat
     let issues (kind ver : Nat) : State := { s with sched := s.sched ++ [(s.cycle + 1, .wv kind n q.val e ver tag)] }
     (e < 4096 →
       exec (.wvPublish u q re tag) s = .next (issues 0 0) ∧ exec (.wvPin u q re rv tag) s = .next (issues 1 v) ∧
       exec (.wvUnpin u q re rv tag) s = .next (issues 2 v) ∧ exec (.wvClaim u q re tag) s = .next (issues 3 0)) ∧
     (4096 ≤ e →
       Answers (.wvPublish u q re tag) s (OnlyLogs s) ∧ Answers (.wvPin u q re rv tag) s (OnlyLogs s) ∧
       Answers (.wvUnpin u q re rv tag) s (OnlyLogs s) ∧ Answers (.wvClaim u q re tag) s (OnlyLogs s))) ∧
  (∀ (n q entry ver : Nat) (tag : TagNo) (s : State), (s.qEnts n q).length < 8 →
     (∀ x ∈ s.que.q, ∀ y ∈ x.2, y.kind ≠ .wvClaim entry ∧ ∀ v, y.kind ≠ .wvPin entry v) →
     let k := s.running.getD 0
     let e := s.wvEntry k entry
     let becomes (kind : Nat) (e' : WvEntry) : Prop := wvServe kind n q entry ver tag s = s.setWv k entry e'
     (∀ c, e.copyOf ver = some c → c.pins < 65535 → becomes 1 (e.mod ver fun c => { c with pins := c.pins + 1 })) ∧
     (∀ c, e.copyOf ver = some c → 0 < c.pins → becomes 2 (e.mod ver fun c => { c with pins := c.pins - 1 })) ∧
     (e.declared = true → e.writingCopy = none → e.c0.ver = some e.newest → e.c1.pins = 0 →
       becomes 3 { e with c1 := { e.c1 with writing := true, ver := none } }) ∧
     (e.declared = true → e.writingCopy = none → e.c0.ver ≠ some e.newest → e.c0.pins = 0 →
       becomes 3 { e with c0 := { e.c0 with writing := true, ver := none } }) ∧
     (e.c0.writing = true →
       becomes 0 { e with c0 := { e.c0 with writing := false, ver := some (e.newest + 1) }, newest := e.newest + 1 }) ∧
     (e.c0.writing = false → e.c1.writing = true →
       becomes 0 { e with c1 := { e.c1 with writing := false, ver := some (e.newest + 1) }, newest := e.newest + 1 })) ∧
  (∀ (t : TileId) (q : QNo) (tag : TagNo) (e : QEnt) (en v : Nat) (s : State),
     let n := t.val
     let k := s.running.getD 0
     let w := s.wvEntry k en
     s.qEnts n q.val = [e] → e.d.tag = tag →
     let left (s' : State) : Prop := s'.qEnts n q.val = [] ∧
       (s'.tag n tag.val).count = (s.tag n tag.val).count - 1 ∧ s'.mem = s.mem ∧ s'.tiles = s.tiles
     (e.kind = .wvPin en v → ∀ c, w.copyOf v = some c → c.pins < 65535 → Answers (.wvPinGrant t q tag) s fun s' =>
       left s' ∧ s'.wvEntry k en = w.mod v fun c => { c with pins := c.pins + 1 }) ∧
     (e.kind = .wvPin en v → pinResult w v = .waits → exec (.wvPinGrant t q tag) s = .next s) ∧
     (e.kind = .wvClaim en → w.writingCopy = none → w.claimed.pins = 0 →
       (∀ x ∈ s.que.q, ∀ y ∈ x.2, y.kind = .wvClaim en → e.uid ≤ y.uid) → Answers (.wvClaimGrant t q tag) s fun s' =>
         left s' ∧ s'.wvEntry k en = w.take) ∧
     (e.kind = .wvClaim en → w.writingCopy ≠ none → Answers (.wvClaimGrant t q tag) s fun s' =>
       s'.halted n q.val = true ∧ s'.wvEntry k en = w ∧
       (s'.reg Reg.TRN_WV_FAULT_COUNT).toNat = min 0xFFFFFFFF ((s.reg Reg.TRN_WV_FAULT_COUNT).toNat + 1)) ∧
     (e.kind = .wvClaim en → w.writingCopy = none → w.claimed.pins ≠ 0 → exec (.wvClaimGrant t q tag) s = .next s))

/-! ### Chains and pulp engines -/

/-- R253: a chain.run with fewer than four chains in flight starts a chain that keeps the general registers as read now;
its first stage issues to its slot in this cycle. With four in flight it has no effect but on chains that are over.
R254: CHAIN_STAGE_ISSUE issues every stage that is due, chain by chain from the oldest on, and no chain of the tile has an issue
left for this cycle or an earlier one; where none was due the tile stands. A V stage acts as its operation does, with the Couch
row it takes, if it takes one, in place of its VA; the stage after it issues 4 cycles later. An mm.stream stage acts on the
registers the chain keeps, and the stage after it issues when its set is ready. A couch.drain stage starts a drain that names
the chain; its rows leave 12 + i cycles later, and in that cycle row i goes to the chain's V stage. Where the drain has no
effect (R283) the V stage still issues in those cycles, on rows that the model leaves free (log entry 116). -/
def Obligations.Chains : Prop :=
  (∀ (u : Site) (chain : Fin 256) (slot : Nat) (w : Word) (rest : List (Nat × Word)) (s : State), s.on u = true →
     let n := u.tile.val
     let alive := (s.tile n).chains.filter fun c => !(c.pend.isEmpty && decide (c.till ≤ s.cycle))
     let c : Chain := ⟨s.uid, (s.tile n).g, (slot, w) :: rest, [⟨0, s.cycle, none, 0⟩], s.cycle + 1⟩
     let started : State := ({ dropChains n s with uid := s.uid + 1 }.modTile n fun x => { x with chains := x.chains ++ [c] }).modTile n
       fun x => x.modChain s.uid fun c => { c with pend := [] }
     chainEntry s chain.val = some ((slot, w) :: rest) → (∀ c ∈ alive, c.uid ≠ s.uid) →
     (alive.length < 4 → exec (.chainRun u chain) s = .next (stageRun u.tile c ⟨0, s.cycle, none, 0⟩ started) ∧
       Answers (.chainRun u chain) s fun t =>
         (∃ c ∈ (t.tile n).chains, c.uid = s.uid ∧ c.regs = (s.tile n).g) ∧
         tget 0 (t.tile n).chainUse slot = s.cycle + 1 ∧ TilesBut n s t) ∧
     (4 ≤ alive.length → Answers (.chainRun u chain) s fun t =>
       (t.tile n).chains = alive ∧ TilesBut n s t ∧ OnlyLogs { s with tiles := t.tiles } t)) ∧
  (∀ (t : TileId) (s : State),
     (Answers (.chainStageIssue t) s fun s' => ∀ c ∈ (s'.tile t.val).chains, ∀ p ∈ c.pend, s.cycle < p.cyc) ∧
     ((∀ c ∈ (s.tile t.val).chains, ∀ p ∈ c.pend, s.cycle < p.cyc) → Answers (.chainStageIssue t) s fun s' =>
       s'.tile t.val = s.tile t.val ∧ TilesBut t.val s s' ∧ s' = { s with tiles := s'.tiles }) ∧
     exec (.chainStageIssue t) s = .next ((s.tile t.val).chains.foldl (fun s c =>
       match (s.tile t.val).chains.find? fun d => d.uid == c.uid with
       | none => s
       | some d => (d.pend.filter fun p => decide (p.cyc ≤ s.cycle)).foldl (fun s p => stageRun t d p s)
           (s.modTile t.val fun x => x.modChain c.uid fun d => { d with pend := d.pend.filter fun p => decide (s.cycle < p.cyc) })) s)) ∧
  (∀ (t : TileId) (c : Chain) (p : ChainIssue) (s : State),
     let n := t.val
     let x := s.tile n
     let w := c.stages.getD p.stage (0, 0)
     let g (r : GReg) : Word := tget 0 c.regs r.val
     let s' := stageRun t c p s
     let follows (cyc : Nat) (row : Option (List Word)) (i : Nat) : Prop := (s'.tile n).chains = x.chains.map fun d =>
       if d.uid = c.uid then d.due (p.stage + 1) cyc row i else d
     TilesBut n s s' ∧
     (∀ i v, decodeSlot t w.1 w.2 = .op i → vecDest i = some v →
       follows (s.cycle + 4) none p.i ∧
       s' = (vecRun ⟨n, c.regs, stageRow t c p s, p.i⟩ i (s.modTile n fun x => { x with chainUse := tset 0 x.chainUse w.1 (s.cycle + 1) })).modTile n
         fun x => x.modChain c.uid fun d => d.due (p.stage + 1) (s.cycle + 4) none p.i) ∧
     (∀ u vd va vb row, decodeSlot t w.1 w.2 = .op (.vadd u vd va vb false) → p.row = some row →
       let r (l : Nat) := fAdd fp32 (row.getD l 0).toNat ((x.vr vb).getD l 0).toNat
       let fl := BitVec.ofNat 8 ((List.range 32).foldl (fun m l => m ||| (r l).2) 0)
       s'.sched = s.sched ++ (if fl = 0 then [] else [(s.cycle + 4, .flags n fl)]) ++
         [(s.cycle + 4, .vset n vd ((List.range 32).map fun l => BitVec.ofNat 32 (r l).1))]) ∧
     (∀ u arr rl rls rr rrs set cont, decodeSlot t w.1 w.2 = .op (.mmStream u arr rl rls rr rrs set cont) →
       let y := x.arr arr
       follows (s.cycle + 74 + acKc y.cfg + (if acTurn y.cfg then 33 else 0) + (if s.debug then 1 else 0)) none 0 ∧
       (y.pwr.isOn s.cycle = true → streamOk y.cfg (g rl) (g rls) (g rr) (g rrs) = true →
         ∃ st ∈ ((s'.tile n).arr arr).streams, st.uid = s.uid ∧ st.issue = s.cycle ∧ st.cfg = y.cfg ∧ st.set = set ∧ st.cont = cont ∧
           st.left = (g rl).toNat ∧ st.leftScale = (g rls).toNat ∧ st.right = (g rr).toNat ∧ st.rightScale = (g rrs).toNat)) ∧
     (∀ u arr set epi re rs ru, decodeSlot t w.1 w.2 = .op (.couchDrain u arr set epi re rs ru) →
       let e := tget CouchEntry.zero x.couch epi.val
       let fits := drainOk e true (g re) (g rs) (g ru) (g (Fin.ofNat 32 (ru.val + 1))) = true
       (fits → (∃ d ∈ (s'.tile n).drains, d.uid = s.uid ∧ d.issue = s.cycle ∧ d.chain = some c.uid ∧ d.entry = e ∧ d.arr = arr ∧ d.set = set) ∧
         (∀ i, i < 32 → (s.cycle + 12 + i, Effect.drainOut n s.uid i) ∈ s'.sched) ∧
         (s'.tile n).chains = x.chains.map fun d => if d.uid = c.uid then { d with till := max d.till (s.cycle + 44) } else d) ∧
       (¬ fits → (∀ d ∈ x.drains, d.uid ≠ s.uid) → (s'.tile n).chains = x.chains.map fun d =>
         if d.uid = c.uid ∧ p.stage + 1 < d.stages.length then
           { d with pend := d.pend ++ (List.range 32).map fun i =>
                      ⟨p.stage + 1, s.cycle + 12 + i, some (lostRowAt n s.spanNo (s.cycle + 12 + i)), i⟩,
                    till := max d.till (s.cycle + 44) }
         else d))) ∧
  (∀ (n uid i k : Nat) (d : Drain) (row : List Word) (s : State),
     (s.tile n).drain uid = some d → d.chain = some k → epDest d.entry = 3 → tfind d.rows i = some row →
     ((drainOut n uid i s).tile n).chains = (s.tile n).chains.map fun c =>
       if c.uid = k then
         match c.vStage with
         | some j => { c with pend := c.pend ++
             [⟨j, s.cycle, some (rowY d.entry row (tget [] d.us i) (tget 0 d.uss i)).1, i⟩] }
         | none => c
       else c)

/-- R193: pulp.start reads the 64 bytes of its descriptor in two cycles; an address that is not a multiple of 64 or lies
outside the store has no effect. R196: an engine that is not in a phase, one that has stopped, and one whose item in
progress still has cycles or answers to come does nothing; an idle one with work takes the lowest item of its range, and one
that finishes an item writes its output and takes the next; while sheets that the item needs have not come (R200; log entry
181) it waits. R197, R210: an idle engine without work is finished where stealing is off, and otherwise asks the first victim of
its order, or the next one of a search under way, when it may send one more request (R199). R198: an engine that serves a steal request gives the upper half of
its range away, rounded down, and says so on VC2, an idle one after it has taken its own next item (R196); a stopped engine
and a refused one give nothing (R193, R209). One that receives a range takes it as its own; after an empty answer it asks the
next victim (R197), when it may send (R199). -/
def Obligations.PulpWork : Prop :=
  (∀ (u : Site) (ra : GReg) (t : TileId) (s : State),
     let n := u.tile.val
     let a := ((s.tile n).gr ra).toNat
     let p := s.pl t.val
     let taken : Pulp := { p with item := some p.lo, lo := p.lo + 1, since := s.cycle, keys := [], vals := [], asked := 0, outstanding := 0, recs := [], cache := [] }
     let order := victims (t.val / 48 % 12) (t.val % 48 % 12)
     let asks (v : Nat) (s' : State) : Prop := s'.pl t.val = { p with search := some v, awaiting := true } ∧
       ∃ f : VFlit, tget [] s'.mesh.offer t.val = tget [] s.mesh.offer t.val ++ [f] ∧ f.kind = 4 ∧ f.args = [1] ∧
         order[v]?.map (groupTile t.val) = some f.dest
     (s.on u = true → a % 64 = 0 → a + 64 ≤ 0x30000 → exec (.pulpStart u ra) s = .next { s with
         mem := { s.mem with acc := s.mem.acc ++ [.read n 10 0 [(a, 32)] (.pulpDesc 0 s.cycle)] },
         sched := s.sched ++ [(s.cycle + 1, .access (.read n 10 0 [(a + 32, 32)] (.pulpDesc 1 s.cycle)))] }) ∧
     (s.on u = true → ¬ (a % 64 = 0 ∧ a + 64 ≤ 0x30000) → Answers (.pulpStart u ra) s (OnlyLogs s)) ∧
     (p.active = false ∨ p.stopped = true ∨ (p.item = none ∧ p.idle s.cycle = false) → exec (.pulpItemDone t) s = .next s) ∧
     (p.idle s.cycle = true → p.lo < p.hi → exec (.pulpItemDone t) s =
       .next (if p.op = 4 ∨ p.op = 5 then keysGo t.val (s.setPl t.val taken) else s.setPl t.val taken)) ∧
     (p.idle s.cycle = true → p.hi ≤ p.lo → p.finished = false → p.awaiting = false →
       (p.nosteal = true → exec (.pulpItemDone t) s = .next (s.setPl t.val { p with finished := true, doneAt := some s.cycle })) ∧
       (p.nosteal = false → maySend s t.val = true →
         (p.search = none → Answers (.pulpItemDone t) s (asks 0)) ∧
         (∀ v, p.search = some v → v + 1 < order.length → Answers (.pulpItemDone t) s (asks (v + 1)))) ∧
       (p.nosteal = false → maySend s t.val = false → (∀ v, p.search = some v → v + 1 < order.length) →
         exec (.pulpItemDone t) s = .next s)) ∧
     (∀ i, p.active = true → p.stopped = false → p.item = some i →
       let x := itemRun t.val i s
       (itemReady s t.val i = false → exec (.pulpItemDone t) s = .next s) ∧
       (itemReady s t.val i = true → x.ready = true →
         exec (.pulpItemDone t) s = .next (itemTake t.val (x.s.setPl t.val { x.s.pl t.val with item := none, cache := [] }))) ∧
       (itemReady s t.val i = true → x.ready = false → exec (.pulpItemDone t) s = .next s))) ∧
  (∀ (t : TileId) (r c lo hi v : Nat) (rest : List PulpMsg) (s : State),
     let n := t.val
     let p := s.pl n
     let q : Pulp := if p.idle s.cycle then
       { p with item := some p.lo, lo := p.lo + 1, since := s.cycle, keys := [], vals := [], asked := 0, outstanding := 0, recs := [], cache := [] } else p
     let m := if p.stopped ∨ p.refused then 0 else (q.hi - q.lo) / 2
     (toServe s n = some (.steal r c) → (p.idle s.cycle = true → p.lo < p.hi ∧ p.op ≠ 4 ∧ p.op ≠ 5) →
       Answers (.pulpStealRequest t) s fun s' =>
         s'.pl n = { q with hi := q.hi - m, inbox := p.inbox.erase (.steal r c), served := s.cycle + 1 } ∧
         (∃ f : VFlit, tget [] s'.mesh.offer n = tget [] s.mesh.offer n ++ [f] ∧ f.dest = groupTile n r ∧ f.kind = 5 ∧
           f.args = [1, q.hi - m, q.hi] ∧ f.born = s.cycle) ∧
         s'.mem = s.mem ∧ s'.tiles = s.tiles ∧ s'.regs = s.regs) ∧
     (toServe s n = none → exec (.pulpStealRequest t) s = .next s) ∧
     (p.inbox = .reply lo hi c :: rest → c ≤ s.cycle → p.stopped = false →
       (lo < hi → Answers (.pulpStealReply t) s fun s' => s' = { s with pulp := s'.pulp } ∧ s'.pl n =
         { p with inbox := rest, lo := lo, hi := hi, search := none, awaiting := false, steals := p.steals + 1, lastDest := none,
                  gotAt := s.cycle + 1 }) ∧
       (hi ≤ lo → p.search = some v → (victims (n / 48 % 12) (n % 48 % 12)).length ≤ v + 1 →
         Answers (.pulpStealReply t) s fun s' => s' = { s with pulp := s'.pulp } ∧ s'.pl n =
           { p with inbox := rest, search := none, awaiting := false, finished := true, doneAt := some s.cycle }) ∧
       (hi ≤ lo → p.search = some v → ∀ w, (victims (n / 48 % 12) (n % 48 % 12))[v + 1]? = some w →
         maySend (s.setPl n { p with inbox := rest, awaiting := false }) n = false → Answers (.pulpStealReply t) s fun s' =>
           s' = { s with pulp := s'.pulp } ∧ s'.pl n = { p with inbox := rest, awaiting := false }) ∧
       (hi ≤ lo → p.search = some v → ∀ w, (victims (n / 48 % 12) (n % 48 % 12))[v + 1]? = some w →
         maySend (s.setPl n { p with inbox := rest, awaiting := false }) n = true →
         Answers (.pulpStealReply t) s fun s' =>
           s'.pl n = { p with inbox := rest, search := some (v + 1), awaiting := true } ∧
           ∃ f : VFlit, tget [] s'.mesh.offer n = tget [] s.mesh.offer n ++ [f] ∧ f.kind = 4 ∧ f.args = [1] ∧ f.dest = groupTile n w)) ∧
     ((∀ x ∈ p.inbox, x.isReply = false) → exec (.pulpStealReply t) s = .next s))

/-- R203: a served insert puts the bucket after it, sealed as a sheet, into the own store's deposit buffer: a present key counts
one more, and takes the item and value of a lower item; an absent one is added with count 1 in key order; where 16 keys stand, the
largest of the 17 is dropped and its count added to the drop count at TBL_DROP. A probe answers with the entry of its
key, or with that of an absent key. No byte of the store or of HBM changes before the deposit buffer is written (R39). R206: a
phase completes when its window and its work are over, its tag counts one less, and the last tile to complete ends it; before
that nothing is done. R208, R210: the first completion counts the phase, and shows and counts an overrun where the work ended
later than 32 cycles before the window. -/
def Obligations.PulpTableAndCompletion : Prop :=
  (∀ (t : TileId) (key item v j r c : Nat) (s : State),
     let n := t.val
     let p := s.pl n
     let a := bucketAddr p key
     let can := p.idle s.cycle = false ∧ storePending s n a 256 = false ∧ storePending s n p.drops 4 = false
     let out (a : Nat) (d : Bytes) (chk : Option Word) : DepWrite :=
       { addr := a, data := d, writer := 3, q := 0, uid := 0, sheet := 0, chk := chk, part := chk.isNone, since := s.cycle }
     let stays (s' : State) : Prop := s'.mem.ts = s.mem.ts ∧ s'.mem.hbm = s.mem.hbm ∧ s'.mem.rsv = s.mem.rsv ∧ s'.tiles = s.tiles
     let insert (b : List HEnt) : Prop :=
       let x := bucketInsert b key item v
       let nb := bucketBytes x.1
       (x.2 = 0 → Answers (.pulpTableRequest t) s fun s' => stays s' ∧
         s'.dep n ++ (s'.pl n).outq = s.dep n ++ [out a nb (some (crc32c nb))] ∧
         (s'.pl n).inbox = p.inbox.erase (.insert key item v r c) ∧ (s'.pl n).served = s.cycle + 1 ∧ (s'.pl n).drop = p.drop) ∧
       (x.2 ≠ 0 → p.has (granules p.drops 4) = true → Answers (.pulpTableRequest t) s fun s' => stays s' ∧
         s'.dep n ++ (s'.pl n).outq = s.dep n ++
           [out a nb (some (crc32c nb)), out p.drops (leBytes (leNat (p.run p.drops 4) + x.2) 4) none] ∧
         (s'.pl n).inbox = p.inbox.erase (.insert key item v r c) ∧ (s'.pl n).served = s.cycle + 1 ∧ (s'.pl n).drop = true)
     (toServe s n = some (.insert key item v r c) → can → p.outq = [] →
       closedBank s n (granules a 256 ++ granules p.drops 4) s.cycle = none →
       (p.has (granules a 256) = true → insert (bucketOf (p.run a 256))) ∧
       (p.got = [] → a + 256 ≤ 0x30000 →
         (∀ g ∈ granules a 256, s.closed n (bankOf g) = false ∧ bankOf g ∉ s.usedBanks n ∧
           tget 0 s.mem.ecc (eccKey placeTs (n * 0x6000 + g)) = 0) →
         (bucketInsert (bucketOf (s.ts n a 256)) key item v).2 = 0 → insert (bucketOf (s.ts n a 256)))) ∧
     (toServe s n = some (.probe key item j r c) → can → p.has (granules a 256) = true →
       let e := match (bucketOf (p.run a 256)).find? fun e => e.1 == key with
         | some e => wordBytes [e.1, e.2.1, e.2.2.1, e.2.2.2]
         | none => wordBytes [key, 0xFFFFFFFF, 0, 0]
       Answers (.pulpTableRequest t) s fun s' => stays s' ∧ (s'.pl n).served = s.cycle + 1 ∧
         (groupTile n r = n → (s'.pl n).inbox = p.inbox.erase (.probe key item j r c) ++ [.probed item j e s.cycle]) ∧
         (groupTile n r ≠ n → (s'.pl n).inbox = p.inbox.erase (.probe key item j r c) ∧
           ∃ f : VFlit, tget [] s'.mesh.offer n = tget [] s.mesh.offer n ++ [f] ∧ f.dest = groupTile n r ∧ f.kind = 5 ∧
             f.args = [3, item, j] ∧ f.data = e)) ∧
     (toServe s n = none → exec (.pulpTableRequest t) s = .next s)) ∧
  (∀ (b : List HEnt) (k i v : Nat),
     (∀ e ∈ b, e.1 = k → b.map (·.1) = (bucketInsert b k i v).1.map (·.1) ∧ (bucketInsert b k i v).2 = 0 ∧
       (if i < e.2.1 then (k, i, e.2.2.1 + 1, v) else (k, e.2.1, e.2.2.1 + 1, e.2.2.2)) ∈ (bucketInsert b k i v).1) ∧
     ((∀ e ∈ b, e.1 ≠ k) →
       (b.length < 16 → bucketInsert b k i v = (insEnt (k, i, 1, v) b, 0)) ∧
       (∀ l g, b = l ++ [g] → 16 ≤ b.length →
         (g.1 < k → bucketInsert b k i v = (b, 1)) ∧ (k < g.1 → bucketInsert b k i v = (insEnt (k, i, 1, v) l, g.2.2.1))))) ∧
  (∀ (t : TileId) (done : Nat) (s : State),
     let n := t.val
     let p := s.pl n
     let late := p.t0 + p.win < done + 32
     (p.active = true → s.pulpDone = some done → max (p.t0 + p.win) (done + 32) ≤ s.cycle →
       Answers (.pulpPhaseComplete t) s fun s' =>
         let left := (s.setPl n { p with active := false, gated := true }).pulp.any fun e => e.2.active
         (s'.pl n).active = false ∧ (s'.tag n p.tag).count = (s.tag n p.tag).count - 1 ∧ s'.mem = s.mem ∧ s'.tiles = s.tiles ∧
         (left = true → s'.pulpDone = some done ∧ s'.pulpLogged = true) ∧
         (left = false → s'.pulpDone = none ∧ s'.pulpLogged = false) ∧
         (s.pulpLogged = true → s'.regs = s.regs ∧ s'.log = s.log) ∧
         (s.pulpLogged = false →
           (s'.reg Reg.PULP_PHASE_COUNT).toNat = min 0xFFFFFFFF ((s.reg Reg.PULP_PHASE_COUNT).toNat + 1) ∧
           (late → s'.rf Reg.PULP_STATUS 0 0 = 1 ∧
             (s'.reg Reg.PULP_OVERRUN_COUNT).toNat = min 0xFFFFFFFF ((s.reg Reg.PULP_OVERRUN_COUNT).toNat + 1)) ∧
           (¬ late → s'.rf Reg.PULP_STATUS 0 0 = s.rf Reg.PULP_STATUS 0 0 ∧
             s'.reg Reg.PULP_OVERRUN_COUNT = s.reg Reg.PULP_OVERRUN_COUNT ∧ s'.log = s.log))) ∧
     (p.active = true → s.pulpDone = some done → s.cycle < max (p.t0 + p.win) (done + 32) →
       exec (.pulpPhaseComplete t) s = .next s) ∧
     (p.active = false ∨ s.pulpDone = none → exec (.pulpPhaseComplete t) s = .next s))

/-! ### Pre-emption, clocking, spans and power -/

/-- R167, R171: the save begins when every tile has stopped, ends with the slot PREEMPTED and the grid empty, and a
restore ends with the slot RUNNING, the span cycle counting on over the time since the save; it waits while the governor
raises the draw (R391). R410: a program whose stop is pending and whose boundary does not come is stopped without a save;
one without a pending stop, or that is stopping already, is left as it is. R143, R168, R169: what a save leaves in the slot's save
area: every byte of the tile stores as the grid holds them once banks that were in OFF are filled (R127), every byte of the slot's
reservoir windows, and the control state of every tile with code; nothing below the area changes. -/
def Obligations.PreemptionSteps : Prop :=
  (∀ (stopUs : BitVec 32) (saveUs : BitVec 16) (k : Nat) (s : State),
     (s.running = some k → s.prState = 1 → (s.slot k).ending = none → allStopped s k = true →
       Answers (.preemptSaveStart stopUs) s fun t =>
         t.prState = 2 ∧ t.reg Reg.PRE_LAST_STOP = stopUs ∧ t.mem = s.mem ∧ t.tiles = s.tiles) ∧
     (s.running = some k → s.prState = 1 → allStopped s k = false → exec (.preemptSaveStart stopUs) s = .next s) ∧
     (s.running = some k → s.prState = 2 → (s.slot k).teardown = false → Answers (.preemptSaveDone saveUs) s fun t =>
       (t.slot k).state = .preempted ∧ t.prState = 3 ∧ t.sched = [] ∧ t.que = {} ∧ t.mesh = {} ∧ t.felt = {} ∧
       t.reg Reg.PRE_LAST_SAVE = BitVec.ofNat 32 saveUs.toNat) ∧
     (s.running = some k → s.prState ≠ 2 → exec (.preemptSaveDone saveUs) s = .next s) ∧
     (s.restoring = some k → s.pwr.preload = false → (s.slot k).ending = none → (s.slot k).teardown = false → Answers .restoreDone s fun t =>
       (t.slot k).state = .running ∧ t.prState = 0 ∧
       t.cycle = (s.slot k).savedCycle + (s.ticks - (s.slot k).savedTick)) ∧
     (s.restoring = none ∨ s.pwr.preload = true → exec .restoreDone s = .next s)) ∧
  (∀ (saveUs : BitVec 16) (k f : Nat) (s : State), s.Canonical → s.running = some k → s.prState = 2 →
     (s.slot k).teardown = false → (s.slot k).save = some f → (∀ e ∈ s.mem.ts, e.1 < rsvOffset) →
     let win (l : Nat) : Nat × Nat := tget (0, 0) (s.slot k).win l
     (∀ l, l < 4 → ((win l).1 + (win l).2) * 0x10000 ≤ 0x6000000) →
     Answers (.preemptSaveDone saveUs) s fun t =>
       let u := fillOff (feltFlush (settleStreams s))
       let base := f * 0x40000000
       (∀ a, a < rsvOffset → mget t.mem.hbm (base + a) = mget u.mem.ts a) ∧
       (∀ l a, l < 4 → a < (win l).2 * 0x10000 →
         mget t.mem.hbm (base + rsvOffset + l * 0x6000000 + a) = mget s.mem.rsv (l * 0x6000000 + (win l).1 * 0x10000 + a)) ∧
       (∀ c ∈ (s.slot k).coded, c < 2304 → ∀ a, a < 4096 →
         mget t.mem.hbm (base + ctlOffset + 0x1000 * c + a) = (ctlBytes u c).getD a 0) ∧
       (∀ a, a < base → mget t.mem.hbm a = mget s.mem.hbm a)) ∧
  (∀ (k : Nat) (s : State), s.running = some k →
     ((s.slot k).pendStop.isSome = true → (s.slot k).state = .running → (s.slot k).teardown = false →
       Answers .stopTimeout s fun t => (t.slot k).state = .stopping ∨ (t.slot k).state = .ended) ∧
     ((s.slot k).pendStop = none ∨ (s.slot k).state ≠ .running → exec .stopTimeout s = .next s))

/-- R219, R223: a droop seen at a node of the graph counts for its next cycle, at another node it does not. A monitor that
reads lower takes the reading into its margin and FM_MIN; an armed crossing of FB_WARN is counted and asks for the
point after the current one, OP8 at the slowest. A reading that is not lower does nothing. R223: a monitor that reads
higher takes the reading, and its crossings are armed again from their thresholds on; the freeboard request falls by
one point when every monitor reads FB_RAISE or above, but not below OS_OP, and not with the calibration defaults
(R379). R225: when the idle PLL has locked to the target, a module with no program on the grid switches at once: the
target becomes the operating point, counted, with nothing pending. With a program the switch waits for the boundary. R417: while
the calibration task runs in a window a monitor holds its last reading. -/
def Obligations.Clocking : Prop :=
  (∀ (x : NodeNo) (m : Fin 9) (v : Byte) (s : State),
     (s.inGraph x.val = true → Answers (.droopDetect x) s fun t =>
       (∀ y, y ∈ t.clk.droop ↔ y = x.val ∨ y ∈ s.clk.droop) ∧ t = { s with clk := { s.clk with droop := t.clk.droop } }) ∧
     (s.inGraph x.val = false → exec (.droopDetect x) s = .next s) ∧
     (inWindow s 3 = true → exec (.freeboardCrossing x m v) s = .next s) ∧
     (inWindow s 3 = false → m.val < monitors x.val → v.toNat < s.marginAt x.val m.val → Answers (.freeboardCrossing x m v) s fun t =>
       t.marginAt x.val m.val = v.toNat ∧
       (∀ y k, y * 9 + k ≠ x.val * 9 + m.val → t.marginAt y k = s.marginAt y k) ∧
       tget 255 t.clk.fmMin x.val = min v.toNat (tget 255 s.clk.fmMin x.val) ∧ t.mem = s.mem ∧ t.tiles = s.tiles ∧
       (s.fbWarn ≤ v.toNat → s.fbCrit ≤ v.toNat → t.regs = s.regs ∧ t.log = s.log) ∧
       (v.toNat < s.fbWarn → s.fbCrit ≤ v.toNat → x.val * 9 + m.val ∉ s.clk.warnOff →
         t.rf Reg.CLK_OPREQ 7 4 = max (s.rf Reg.CLK_OPREQ 7 4) (min 8 (s.rf Reg.CLK_STATUS 31 28 + 1)) ∧
         (t.reg Reg.CLK_FBLOW_COUNT).toNat = min 0xFFFFFFFF ((s.reg Reg.CLK_FBLOW_COUNT).toNat + 1))) ∧
     (s.marginAt x.val m.val ≤ v.toNat → exec (.freeboardCrossing x m v) s = .next s)) ∧
  (∀ (x : NodeNo) (m : Fin 9) (v : Byte) (s : State),
     let oq := s.rf Reg.CLK_OPREQ 7 4
     let may := s.rf Reg.CLK_OPSEL 8 8 = 1 ∧ s.rf Reg.BOOT_STATUS 24 24 = 0 ∧
       (∀ y k, y < 20 → k < monitors y → s.fbRaise ≤ s.marginAt y k) ∧ s.rf Reg.CLK_OPSEL 3 0 < oq
     (inWindow s 3 = true → exec (.freeboardRise x m v) s = .next s) ∧
     (inWindow s 3 = false → m.val < monitors x.val → s.marginAt x.val m.val < v.toNat → s.fbWarn ≤ v.toNat → s.fbCrit ≤ v.toNat →
       Answers (.freeboardRise x m v) s fun t =>
         t.marginAt x.val m.val = v.toNat ∧ x.val * 9 + m.val ∉ t.clk.warnOff ∧ x.val * 9 + m.val ∉ t.clk.critOff ∧
         t = { s with clk := t.clk }) ∧
     (v.toNat ≤ s.marginAt x.val m.val → exec (.freeboardRise x m v) s = .next s) ∧
     (may → Answers .freeboardRaise s fun t =>
       t.rf Reg.CLK_OPREQ 7 4 = oq - 1 ∧ t.rf Reg.CLK_OPREQ 3 0 = s.rf Reg.CLK_OPREQ 3 0 ∧
       t.rf Reg.CLK_OPREQ 15 8 = s.rf Reg.CLK_OPREQ 15 8 ∧ t = { s with regs := t.regs }) ∧
     (¬ may → exec .freeboardRaise s = .next s)) ∧
  (∀ (us : BitVec 32) (s : State),
     let pends := s.rf Reg.CLK_STATUS 23 23 = 1 ∧ s.rf Reg.CLK_STATUS 22 22 = 0
     (pends → s.running = none → Answers (.pllLockDone us) s fun t =>
       t.rf Reg.CLK_STATUS 31 28 = s.rf Reg.CLK_STATUS 27 24 ∧ t.rf Reg.CLK_STATUS 23 23 = 0 ∧
       (t.reg Reg.CLK_OP_COUNT).toNat = min 0xFFFFFFFF ((s.reg Reg.CLK_OP_COUNT).toNat + 1) ∧ t.mem = s.mem ∧
       t.tiles = s.tiles) ∧
     (pends → s.running.isSome = true → Answers (.pllLockDone us) s fun t =>
       t.rf Reg.CLK_STATUS 22 22 = 1 ∧ t.rf Reg.CLK_STATUS 31 28 = s.rf Reg.CLK_STATUS 31 28 ∧
       t = { s with regs := t.regs, clk := { s.clk with lockUs := us.toNat } }) ∧
     (¬ pends → exec (.pllLockDone us) s = .next s))

/-- R251, R252: at a boundary whose conditions hold, the span number advances, the span cycle starts at 0 with the Felt empty and
the counts of the cycle stretching at 0 (R222) while a tile of the program goes on, and the program ends when every tile has
ended. Of a program of several modules the module's arrival is noted, and the exchange between them must be complete
(R313). R410: with a stop pending the program ends there. While the conditions do not hold nothing is done but to commit
streams that are done and to note the arrival. R418: where a task is at its deferral limit the next span does not open yet: a
forced window holds every polder, counted, and while one is open a boundary does nothing; when it is over, the span opens in
the first cycle in which the counts of the nodes are equal (R222, R417). -/
def Obligations.SpanBoundary : Prop :=
  (∀ (k : Nat) (s : State),
    let p := s.slot k
    let c := if 1 < p.modules then noteArrival k (settleStreams s) else settleStreams s
    let emptied (t : State) : Prop := (t.slot k).state = .ended ∧ t.sched = [] ∧ t.felt = {} ∧ t.mesh = {} ∧ t.que = {}
    s.running = some k → s.ras.hold = false → s.debug = false → haltedAtTide k c = none → p.teardown = false → copyDue c k = false →
    (p.pendStop = none → boundaryReady k c = true → (∃ t ∈ p.coded, (s.tile t).core ≠ .ended) →
      ((∀ j, j < 6 → taskForces s j = false) → Answers .spanBoundary s fun t =>
        t.cycle = 0 ∧ (t.slot k).span = p.span + 1 ∧ t.felt.words = [] ∧ t.clk.hist = [] ∧ t.clk.now = [] ∧ t.clk.droop = []) ∧
      ((∃ j, j < 6 ∧ taskForces s j = true) → Answers .spanBoundary s fun t =>
        t.ras.hold = true ∧ (t.slot k).span = p.span ∧ t.cycle = s.cycle ∧ t.clk.hist = s.clk.hist ∧
        (t.reg Reg.RAS_FORCED_COUNT).toNat = min 0xFFFFFFFF ((s.reg Reg.RAS_FORCED_COUNT).toNat + 1))) ∧
    (p.pendStop = none → boundaryReady k c = true → (∀ t ∈ p.coded, (s.tile t).core = .ended) → Answers .spanBoundary s emptied) ∧
    (p.pendStop.isSome = true → boundaryReady k c = true → Answers .spanBoundary s fun t => emptied t ∧ (t.slot k).pendStop = none) ∧
    (boundaryReady k c = false → exec .spanBoundary s = .next c) ∧
    (1 < p.modules → p.tide.passed = false → boundaryReady k c = false) ∧
    (1 < p.modules → p.tide.arrived = false → p.state = .running → localReady k (settleStreams s) = true → reamsSettled (settleStreams s) k = true →
      (c.tideOf k).arrived = true ∧ (c.tideOf k).arrivedAt = s.ticks)) ∧
  (∀ s : State, s.running = none ∨ s.ras.hold = true → exec .spanBoundary s = .next s) ∧
  (∀ (k : Nat) (s : State), s.running = some k → s.ras.hold = true →
    (0 < s.ras.win → holdEnd s = s) ∧
    (s.ras.win = 0 → countsEqual true s = false → holdEnd s = s) ∧
    (s.ras.win = 0 → countsEqual true s = true → (holdEnd s).cycle = 0 ∧ (holdEnd s).ras.hold = false ∧
      ((holdEnd s).slot k).span = (s.slot k).span + 1 ∧ (holdEnd s).clk.hist = []))

/-- R387, R396: with no program on the grid, a mean power above the cap asks for one point slower and is counted, and a
power that would fit at the next faster point asks for one faster; otherwise the request stands. A sensor above its derate
threshold asks for one point slower and is counted; 1 s with every sensor 5 °C below asks for one faster. With a program
these decisions belong to its boundaries. R387, R388, R400: a governor tick takes the measurements into their registers and the
mean of the last CP_WIN ms into PA_W, and the values written to the power registers into effect; unless a START
waits for the draw and the tick ends its preparation, no memory and no tile changes. R391, R375: the tick that ends the preparation
launches the START that waits (log entry 124). R374: in RECOVERY none of these acts. -/
def Obligations.PowerDecisions : Prop :=
  (∀ (s : State),
     let oq := s.rf Reg.CLK_OPREQ 15 12
     let th := s.rf Reg.CLK_OPREQ 11 8
     let pa := s.rf Reg.PWR_AVG 15 0
     let cap := s.effF Reg.PWR_CAP 15 0
     let now := s.rf Reg.CLK_STATUS 31 28
     let fits := pa * (16 - (now - 1)) ≤ cap * (16 - now)
     (s.stage ≠ 8 → s.running = none → cap < pa → Answers .powerCapTick s fun t =>
       t.rf Reg.CLK_OPREQ 15 12 = max oq (min (oq + 1) (min 8 (now + 1))) ∧ t.rf Reg.CLK_OPREQ 11 0 = s.rf Reg.CLK_OPREQ 11 0 ∧
       (t.reg Reg.PWR_CAP_COUNT).toNat = min 0xFFFFFFFF ((s.reg Reg.PWR_CAP_COUNT).toNat + 1) ∧ t.mem = s.mem) ∧
     (s.stage ≠ 8 → s.running = none → pa ≤ cap → fits → Answers .powerCapTick s fun t =>
       t.rf Reg.CLK_OPREQ 15 12 = oq - 1 ∧ t = { s with regs := t.regs }) ∧
     (s.stage ≠ 8 → s.running = none → pa ≤ cap → ¬ fits → exec .powerCapTick s = .next s) ∧
     (s.stage ≠ 8 → s.running = none → s.pwr.overTemp ≠ [] → th < 8 → Answers .thermalTick s fun t =>
       t.rf Reg.CLK_OPREQ 11 8 = th + 1 ∧ t.pwr.overTemp = [] ∧ t.pwr.coolMs = 0 ∧
       (t.reg Reg.THM_DERATE_COUNT).toNat = min 0xFFFFFFFF ((s.reg Reg.THM_DERATE_COUNT).toNat + 1) ∧ t.mem = s.mem) ∧
     (s.stage ≠ 8 → s.running = none → s.pwr.overTemp = [] → 1000 ≤ s.pwr.coolMs → 0 < th → Answers .thermalTick s fun t =>
       t.rf Reg.CLK_OPREQ 11 8 = th - 1 ∧ t.pwr.coolMs = 0 ∧ t.mem = s.mem) ∧
     (s.stage ≠ 8 → s.running = none → s.pwr.overTemp = [] → s.pwr.coolMs < 1000 ∨ th = 0 → exec .thermalTick s = .next s) ∧
     (s.running.isSome = true ∨ s.stage = 8 → exec .powerCapTick s = .next s ∧ exec .thermalTick s = .next s) ∧
     (s.stage = 8 → ∀ m, exec (.governorTick m) s = .next s)) ∧
  (∀ (m : PowerSample) (c : HostCmd) (s : State), s.stage ≠ 8 → (s.host.waits.filter fun w => w.1 == opStart) = [(opStart, c)] →
     (governorTick m s).pwr.preload = false →
     exec (.governorTick m) s = .next (startNow c (startGo c) (governorTick m s)) ∧
     ∀ k vals, OwnsSlot c k s → (s.slot k).state = .admitted → s.gridBusy = false → startPatches c (s.slot k) = some vals →
       exec (.governorTick m) s = .next (finishCmd c 0 k (argAt c 40 4) 0 0 (launch c k vals (governorTick m s))) ∧
       Answers (.governorTick m) s fun t => (t.slot k).state = .running ∧ t.cycle = 0) ∧
  (∀ (m : PowerSample) (s : State), s.stage ≠ 8 →
     ((∀ w ∈ s.host.waits, w.1 ≠ opStart) ∨ (governorTick m s).pwr.preload = true) → Answers (.governorTick m) s fun t =>
     let h := (m.watts.toNat :: s.pwr.hist).take (10 * wfld (s.reg Reg.PWR_CAP) 31 16)
     (t.reg Reg.PWR_IN).toNat = m.deciVolts.toNat * 65536 + m.watts.toNat ∧
     t.reg Reg.PWR_AVG = BitVec.ofNat 32 (h.foldl (· + ·) 0 / h.length) ∧ t.pwr.hist = h ∧
     (∀ k, k < 5 → (t.reg (Reg.railMon k)).toNat = (m.railMv.getD k 0).toNat * 65536 + (m.railA.getD k 0).toNat) ∧
     (∀ n ∈ pwrRegs, t.effReg n = s.reg n) ∧
     (wfld (s.reg Reg.LL_CTRL) 31 31 = 0 → t.pwr.ballast = 0) ∧ t.mem = s.mem ∧ t.tiles = s.tiles ∧ t.sched = s.sched)

/-- R399: the mirror takes each reading with its offset; sensors without a reading keep theirs. R386, R397: a sensor with
a trip threshold that reaches it sets the thermal request to OP8 and raises TRIP; the other sensors have none. A rail
at its limit raises its status bit, but rails 3 and 4 do not. R392, R393, R227: with nothing running and no level load
the device enters the deepest idle state that its exit tolerance allows, or moves on to it from a shallower one, and its polders
take the state of it; nothing happens where it must not idle. R374: in RECOVERY the mirror and the idle state stand. -/
def Obligations.SensorsAndIdle : Prop :=
  (∀ (raw : List (BitVec 16)) (s : State), s.stage = 8 → exec (.sensorUpdate raw) s = .next s) ∧
  (∀ (raw : List (BitVec 16)) (s : State), s.stage ≠ 8 → raw.length ≤ 41 → Answers (.sensorUpdate raw) s fun t =>
     (∀ n, n < 41 → t.temp n = if n < raw.length then raw.getD n 0 + tget 0 s.pwr.offsets n else s.temp n) ∧
     t = { s with pwr := t.pwr, regs := t.regs, mgmt := { s.mgmt with events := t.mgmt.events } }) ∧
  (∀ (n : Fin 64) (rail : Fin 5) (s : State),
     (n.val < 37 → Answers (.thermalTrip n) s fun t =>
       t.rf Reg.CLK_OPREQ 11 8 = 8 ∧ (t.reg Reg.THM_STATUS).getLsbD 1 = true ∧ t.pwr.tripped = true ∧ t.mem = s.mem ∧
       t.tiles = s.tiles) ∧
     (37 ≤ n.val → exec (.thermalTrip n) s = .next s) ∧
     (rail.val < 3 → Answers (.railLimit rail) s fun t =>
       (t.reg Reg.PWR_STATUS).getLsbD 2 = true ∧ t.pwr.railLogged = true ∧ t.mem = s.mem ∧ t.tiles = s.tiles ∧
       (rail.val = 0 → ∀ x, x < 16 → s.inGraph x = true → x ∈ t.clk.droop) ∧
       (rail.val = 1 → ∀ x, 16 ≤ x → x < 20 → x ∈ t.clk.droop)) ∧
     (3 ≤ rail.val → exec (.railLimit rail) s = .next s)) ∧
  (∀ (s : State),
     let may := s.stage ≠ 8 ∧ s.effF Reg.LL_CTRL 31 31 = 0 ∧ s.gridBusy = false ∧ s.host.accepted.any (·.started) = false
     (may → s.idle < idleChoice s → Answers .idleEntry s fun t =>
       t.idle = idleChoice s ∧
       (∀ k, k < 16 → t.polder k = if idleChoice s = 1 then 1 else if idleChoice s = 2 then 3 else 2) ∧
       t.mem.hbm = s.mem.hbm ∧ (idleChoice s ≠ 3 → t.mem = s.mem)) ∧
     (¬ may → exec .idleEntry s = .next s) ∧ (idleChoice s ≤ s.idle → exec .idleEntry s = .next s) ∧
     Answers (.d3Transition true) s (fun t => t.host.d3 = true ∧ t.mem.hbm = s.mem.hbm) ∧
     Answers (.d3Transition false) s (fun t => t.host.d3 = false ∧ t.mem = s.mem))

/-! ### Supply, start-up, flash and security -/

/-- R384, R397, R460, R461: what moves the supply. EN rising charges the input capacitance unless something holds the
rails off; charged, the rails start, with PWRGD still low until POWER_GOOD; EN falling, an input lockout, a rail at its limit for 1 ms and a
thermal shutdown remove them, and what the device held is lost but for its flash; the hold-off of EN and the end of a lockout
let the rails come back. The model's choice (log entry 12): an event command whose condition does not hold changes nothing. -/
def Obligations.SupplySequence : Prop :=
  ∀ (rail : Fin 5) (n : Fin 64) (o : BootOutcome) (s : State),
    let m := s.md
    let lost (l : Latch) (t : State) : Prop :=
      t.md.supply = .off ∧ pwrgd t = .low ∧ t.md.latch = l ∧ t.tiles = [] ∧ t.slots = [] ∧ t.mem = {} ∧ t.host.link = false ∧
        t.host.mem = s.host.mem ∧ (s.boot.busy = none → t.boot.flash = s.boot.flash)
    (m.en = true → exec .enRise s = .next s) ∧
    (m.en = false → m.holdoff = false → m.locked = false → m.latch = .none →
      exec .enRise s = .next { s with md := { m with en := true, supply := .charging } }) ∧
    (m.en = false → ¬ (m.holdoff = false ∧ m.locked = false ∧ m.latch = .none) →
      exec .enRise s = .next { s with md := { m with en := true } }) ∧
    (m.en = false → exec .enFall s = .next s) ∧
    (m.en = true → m.supply ≠ .off → Answers .enFall s fun t =>
      lost (if m.latch = .untilLow then .untilLow else .none) t ∧ t.md.en = false ∧ t.md.holdoff = true) ∧
    (m.en = true → m.supply = .off → exec .enFall s = .next { s with md := { m with
      en := false, holdoff := true, latch := if m.latch = .untilLow then .untilLow else .none } }) ∧
    (m.holdoff = false → exec .enHoldoffExpiry s = .next s) ∧
    (m.holdoff = true → m.en = true → m.latch = .none → m.locked = false →
      exec .enHoldoffExpiry s = .next { s with md := { m with holdoff := false, supply := .charging } }) ∧
    (m.holdoff = true → m.en = false →
      exec .enHoldoffExpiry s = .next { s with md := { m with holdoff := false, latch := .none } }) ∧
    (m.supply = .charging → exec .capacitanceCharged s =
      .next { s with md := { m with supply := .on }, boot := { s.boot with started := false } }) ∧
    (m.supply = .charging → Answers .capacitanceCharged s fun t => pwrgd t = .low) ∧
    (m.supply ≠ .charging → exec .capacitanceCharged s = .next s) ∧
    (m.locked = true → exec .inputLockout s = .next s) ∧
    (m.locked = false → m.supply ≠ .off → Answers .inputLockout s fun t => lost m.latch t ∧ t.md.locked = true) ∧
    (m.locked = false → exec (.inputLockoutEnd o) s = .next s) ∧
    (m.locked = true → ¬ (m.en = true ∧ m.holdoff = false ∧ m.latch = .none) →
      exec (.inputLockoutEnd o) s = .next { s with md := { m with locked := false } }) ∧
    (m.locked = true → m.en = true → m.holdoff = false → m.latch = .none → Answers (.inputLockoutEnd o) s fun t =>
      t.md.supply = .on ∧ t.md.locked = false ∧ t.stage = 0 ∧ t.rf Reg.BOOT_STATUS 18 16 = 0 ∧ t.tiles = [] ∧ t.mem.hbm = [] ∧
      t.boot.flash = s.boot.flash) ∧
    (3 ≤ rail.val → m.supply = .on → Answers (.railLimitShutdown rail) s (lost .untilFall)) ∧
    (rail.val < 3 ∨ m.supply ≠ .on → exec (.railLimitShutdown rail) s = .next s) ∧
    (n.val < 37 → m.supply = .on → Answers (.thermalShutdown n) s (lost .untilLow)) ∧
    (37 ≤ n.val ∨ m.supply ≠ .on → exec (.thermalShutdown n) s = .next s)

/-- R372–R374, R376, R377: power good and the resets clear the device but for its flash and begin start-up with their
BS_RESET: at stage 0, or at stage 1 for a warm one, which keeps the logbook. Start-up goes through the stages: a step with no
command waiting ends the stage that runs, one a cycle in the model (log entry 53), and leaves a start-up that is over as it is: it ends READY with the boot lock set when an image verifies and every unit passes, in RECOVERY when
neither image verifies, and FAILED with the kind and the unit that failed; an image that does not verify is followed by
the other slot's. A reset that finds a flash command running waits for it. -/
def Obligations.StartUp : Prop :=
  (∀ (byPldm : Bool) (o : BootOutcome) (s : State),
     let begins (code stage : Nat) (t : State) : Prop :=
       t.rf Reg.BOOT_STATUS 18 16 = code ∧ t.stage = stage ∧ t.boot.plan = some o ∧ t.boot.started = true ∧ t.tiles = [] ∧
         t.slots = [] ∧ t.mem.ts = [] ∧ t.mem.hbm = [] ∧ t.mem.rsv = [] ∧ t.boot.flash = s.boot.flash ∧ t.host.mem = s.host.mem
     (s.md.supply ≠ .on ∨ s.boot.started = true → exec (.powerGood o) s = .next s) ∧
     (s.md.supply = .on → s.boot.started = false → Answers (.powerGood o) s fun t => begins 0 0 t ∧ pwrgd t = .released) ∧
     (s.md.supply = .on → s.boot.busy = none →
       Answers (.coldReset byPldm o) s (begins (if byPldm then 2 else 1) 0) ∧
       Answers (.warmReset byPldm o) s fun t => begins (if byPldm then 4 else 3) 1 t ∧ t.log = s.log) ∧
     (s.md.supply = .on → s.boot.busy.isSome = true → s.boot.next = none →
       exec (.coldReset byPldm o) s = .next { s with boot := { s.boot with next := some (true, byPldm) } } ∧
       exec (.warmReset byPldm o) s = .next { s with boot := { s.boot with next := some (false, byPldm) } }) ∧
     (s.md.supply ≠ .on → exec (.coldReset byPldm o) s = .next s ∧ exec (.warmReset byPldm o) s = .next s)) ∧
  (∀ (o : BootOutcome) (s : State), s.pending = [] → s.boot.plan = some o → ∃ t, step s = .next t ∧
     t.stage = (bootStage s).stage ∧ t.boot.plan = (bootStage s).boot.plan ∧
     t.reg Reg.BOOT_STATUS = (bootStage s).reg Reg.BOOT_STATUS ∧ t.boot.flash = (bootStage s).boot.flash) ∧
  (∀ s : State, s.pending = [] → s.boot.plan = none → ∃ t, step s = .next t ∧ t.stage = s.stage ∧ t.boot.plan = none ∧
     t.reg Reg.BOOT_STATUS = s.reg Reg.BOOT_STATUS) ∧
  (∀ (o : BootOutcome) (s : State), s.boot.plan = some o →
     let t := bootStage s
     let failed (kind : Nat) (u : BitVec 12) : Prop :=
       t.stage = 9 ∧ t.rf Reg.BOOT_STATUS 15 12 = kind ∧ t.rf Reg.BOOT_STATUS 11 0 = u.toNat ∧ t.boot.plan = none
     let other : Bool := decide (s.rf Reg.BOOT_STATUS 25 25 = 1)
     (s.stage = 0 → (∀ u, o = .fuseRead u → failed 4 u) ∧ ((∀ u, o ≠ .fuseRead u) → t.stage = 1)) ∧
     (s.stage = 1 → t.stage = 2) ∧
     (s.stage = 2 → (∀ im, verifyImage s (bootSlot s) = .ok im → t.stage = 3 ∧ t.rf Reg.BOOT_STATUS 26 26 = bootSlot s) ∧
       (∀ e, verifyImage s (bootSlot s) = .error e →
         (other = false → t.stage = 1 ∧ t.rf Reg.BOOT_STATUS 25 25 = 1 ∧ bootSlot t = 1 - bootSlot s) ∧
         (other = true → t.stage = 8 ∧ t.boot.plan = none))) ∧
     (s.stage = 3 → ∀ im, verifyImage s (bootSlot s) = .ok im → t.stage = 4 ∧ t.served = true ∧
       t.rf Reg.SEC_STATUS 27 26 = im.keyIdx ∧ t.rf Reg.SEC_STATUS 21 16 = im.svn ∧ t.boot.subsys = im.subsys) ∧
     (s.stage = 4 → (∀ u, o = .hbmStack u → failed 1 u) ∧
       ((∀ u, o ≠ .hbmStack u) → t.stage = 5 ∧ ∀ k, k < 16 → t.polder k = 0)) ∧
     (s.stage = 5 → (∀ u, o = .sluice u → failed 3 u) ∧ ((∀ u, o ≠ .sluice u) → t.stage = 6)) ∧
     (s.stage = 6 → (∀ u, o = .tileBeyondSpares u → failed 2 u) ∧
       (∀ ms, o = .ok ms → t.stage = 7 ∧ t.rf Reg.BOOT_STATUS 27 27 = 1 ∧ t.reg Reg.BOOT_TIME = ms ∧ t.boot.plan = none))) ∧
  (∀ s : State, s.boot.plan = none → bootStage s = s)

/-- R369, R380–R383: a flash command runs until it is done, or is refused: one is running, its address is not aligned, it
names a protected sector, its calibration set fails a check. R373: before the end of stage 3 no such command is taken. READ fills the window, ERASE sets its sector to ones,
PROGRAM copies the window to its page; every other page stands. R428–R430, R439, R441: the fused version is raised to
that of the image by a burn, which a write of the key starts when the image's is higher and the preferred image
booted; any other write is an authentication failure. The identity key is ready when its digest is that of the fuses,
else it has failed. R374: in RECOVERY a write of the key does nothing. Under the debug lock the first access to a
test port in a second is logged, the others are ignored; without it the port reads and writes the device's memories (R439; log
entry 182). -/
def Obligations.FlashAndSecurity : Prop :=
  (∀ (o : BootOutcome) (s : State),
     let a := s.rf Reg.BOOT_FL_ADDR 25 0
     let runs (op : Nat) : State := { s.setRf Reg.BOOT_FL_STATUS 31 31 1 with boot := { s.boot with busy := some (op, a) } }
     let refused (why : Nat) : State := (s.setRf Reg.BOOT_FL_STATUS 7 4 0).setBits Reg.BOOT_FL_STATUS (16 * why)
     (s.served = false → ∀ c ∈ [Instr.flashRead, .flashErase, .flashProgram, .setPref, .calRead, .calCommit], exec c s = .next s) ∧
     (s.served = true → s.boot.busy.isSome = true →
       (∀ c ∈ [Instr.flashRead, .flashErase, .flashProgram, .setPref, .calRead], exec c s = .next (refused 3)) ∧
       Answers .calCommit s fun t => t.rf Reg.BOOT_FL_STATUS 7 4 = 3 ∧ t.boot = s.boot) ∧
     (s.served = true → s.boot.busy = none →
       exec .flashRead s = .next (if a % 0x1000 = 0 then runs 1 else refused 1) ∧
       exec .flashErase s =
         .next (if a % 0x10000 = 0 then (if flashProtected s a = true then refused 2 else runs 2) else refused 1) ∧
       exec .flashProgram s =
         .next (if a % 0x1000 = 0 then (if flashProtected s a = true then refused 2 else runs 3) else refused 1) ∧
       exec .setPref s = .next (runs 4) ∧ exec .calRead s = .next (runs 5) ∧
       (calFault (windowBytes s) = none → exec .calCommit s = .next (runs 6)) ∧
       (∀ e, calFault (windowBytes s) = some e → Answers .calCommit s fun t =>
         t.rf Reg.BOOT_FL_STATUS 7 4 = 4 ∧ t.boot = s.boot)) ∧
     (s.boot.busy = none → exec (.flashCmdDone false o) s = .next s) ∧
     (∀ op b, s.boot.busy = some (op, b) → s.boot.next = none →
       (Answers (.flashCmdDone true o) s fun t =>
         t.boot.busy = none ∧ t.rf Reg.BOOT_FL_STATUS 31 31 = 0 ∧ t.rf Reg.BOOT_FL_STATUS 7 4 = 5) ∧
       (op < 8 → Answers (.flashCmdDone false o) s fun t =>
         t.boot.busy = none ∧ t.rf Reg.BOOT_FL_STATUS 31 31 = 0 ∧ t.rf Reg.BOOT_FL_STATUS 2 0 = op ∧
         (op = 1 → (∀ i, i < 4096 → mget t.boot.window i = (s.flashRead b 4096).getD i 0) ∧ t.boot.flash = s.boot.flash) ∧
         (op = 2 → ∀ p, t.flashPage p = if p / 16 = b / 0x10000 then List.replicate 4096 0xFF else s.flashPage p) ∧
         (op = 3 → ∀ p, t.flashPage p = if p = b / 4096 then windowBytes s else s.flashPage p)))) ∧
  (∀ (v : Word) (s : State),
     let may := v = 0x53564E31 ∧ s.svnFused < s.svnImage ∧ s.rf Reg.BOOT_STATUS 25 25 = 0
     let good := Config.shake256 (Config.falconKey (identitySeed s)).1 32 = Config.idKeyDigest.toList
     let failed (t : State) : Prop :=
       (t.reg Reg.SEC_AUTHF_COUNT).toNat = min 0xFFFFFFFF ((s.reg Reg.SEC_AUTHF_COUNT).toNat + 1) ∧
         (t.reg Reg.SEC_STATUS).getLsbD 0 = true ∧ t.mem = s.mem ∧ t.tiles = s.tiles
     (s.served = true → s.stage ≠ 8 → may → exec (.svnRaise v) s = .next { s with sec := { s.sec with burn := some s.svnImage } }) ∧
     (s.served = true → s.stage ≠ 8 → ¬ may → Answers (.svnRaise v) s fun t => failed t ∧ t.sec = s.sec) ∧
     (s.served = false ∨ s.stage = 8 → exec (.svnRaise v) s = .next s) ∧
     (∀ n, s.sec.burn = some n → Answers .svnBurnDone s fun t =>
       t.svnFused = max s.svnFused n ∧ t.sec.burn = none ∧ t = { s with sec := t.sec }) ∧
     (s.sec.burn = none → exec .svnBurnDone s = .next s) ∧
     (s.sec.keying = true → good → Answers .identityKeyReady s fun t =>
       t.sec.keying = false ∧ t.rf Reg.SEC_STATUS 30 30 = 1 ∧ t.rf Reg.SEC_STATUS 29 29 = s.rf Reg.SEC_STATUS 29 29) ∧
     (s.sec.keying = true → ¬ good → Answers .identityKeyReady s fun t =>
       t.sec.keying = false ∧ t.rf Reg.SEC_STATUS 29 29 = 1 ∧ failed t) ∧
     (s.sec.keying = false → exec .identityKeyReady s = .next s) ∧
     (Config.debugLock = true → ∀ a, Answers (.testPortAccess ⟨true, a⟩) s failed ∧ exec (.testPortAccess ⟨false, a⟩) s = .next s) ∧
     (Config.debugLock = false → ∀ (first : Bool) (m : TestMem) (a n : Nat) (d : Bytes),
       (a + n ≤ testSize m → exec (.testPortAccess ⟨first, .read m a n⟩) s =
         .next { s with mgmt := { s.mgmt with resp := some (.testData (testRead m a n s)) } }) ∧
       (a + d.length ≤ testSize m → Answers (.testPortAccess ⟨first, .write m a d⟩) s fun t =>
         testRead m a d.length t = d ∧ t = { s with mem := { s.mem with ts := t.mem.ts, rsv := t.mem.rsv, hbm := t.mem.hbm } })))

/-! ### Links, the tide and the reductions -/

/-- R296, R299, R315, R319, R320: the timers and events of a port. Looking for markers starts again; training that does
not end takes the port DOWN, as does a lost lane, but where one half passed EQ the port goes to ALIGN with it; a port that is
DOWN trains again by itself, or is DISABLED when it is not enabled; a retrain takes a port to RECOVER, which keeps its
link-layer state, or to DETECT from DOWN and DISABLED. Where the port is in another state nothing happens, and no other port
changes. R297, R298: a frame received on a lane in DETECT is noted for that lane, and a request for a preset loads it into the
transmit lane of its number; four lanes take the port to EQ. In ALIGN, with the last frame sent and received on every lane of a
port of width 8, the flit stream starts: the port is in IDENT, its IDENT flit waits and no other flit is lost (R318); RECOVER ends
so with the port ACTIVE again, replaying what is not acknowledged (R305). A port that does not train takes no frame. -/
def Obligations.LinkPorts : Prop :=
  (∀ (p : PortNo) (lane : Fin 8) (w b : Nat) (r : Bool) (s : State),
     let x := s.port p.val
     let goes (st : PortState) (t : State) : Prop := (t.port p.val).st = st ∧ (∀ q, q ≠ p.val → t.port q = s.port q) ∧
       t = { s with ports := t.ports }
     let falls (cause : Nat) (t : State) : Prop := (t.port p.val).st = .down ∧ (t.port p.val).cause = cause ∧
       (t.reg Reg.LNK_DOWN_COUNT).toNat = min 0xFFFFFFFF ((s.reg Reg.LNK_DOWN_COUNT).toNat + 1) ∧
       t.mem = s.mem ∧ t.tiles = s.tiles ∧ ∀ q, q ≠ p.val → q ≠ fellow p.val → t.port q = s.port q
     let m := if x.rev then 7 - lane.val else lane.val
     let inUse := x.base ≤ m ∧ m < x.base + x.width
     let half := x.choice (s.rf (Reg.port p.val 8) 8 8 == 1) true
     (x.st = .detect → Answers (.linkDetectRetry p) s fun t => goes .detect t ∧ (t.port p.val).lanes = []) ∧
     (x.st ≠ .detect → exec (.linkDetectRetry p) s = .next s) ∧
     (x.st = .align ∨ x.st = .ident ∨ (x.st = .eq ∧ half = none) →
       Answers (.linkTrainTimeout p) s fun t => goes .down t ∧ (t.port p.val).cause = 2) ∧
     (x.st = .eq → half = some (w, b) → x.mapping w b = some r → Answers (.linkTrainTimeout p) s fun t => goes .align t ∧
       (t.port p.val).width = w ∧ (t.port p.val).base = b ∧ (t.port p.val).rev = r ∧ (t.port p.val).cdown = 16) ∧
     (x.st = .recover → Answers (.linkTrainTimeout p) s (falls 5)) ∧
     (x.st ∉ [PortState.eq, .align, .ident, .recover] → exec (.linkTrainTimeout p) s = .next s) ∧
     (x.st = .down → s.linkEnabled p.val = false → Answers (.linkDownIdleExpiry p) s (goes .disabled)) ∧
     (x.st = .down → s.linkEnabled p.val = true → s.linkAuto = true → Answers (.linkDownIdleExpiry p) s (goes .detect)) ∧
     (x.st ≠ .down ∨ (s.linkEnabled p.val = true ∧ s.linkAuto = false) → exec (.linkDownIdleExpiry p) s = .next s) ∧
     (x.st ∈ [PortState.active, .degraded, .recover] → inUse → Answers (.linkLossOfSignal p lane) s (falls 1)) ∧
     (x.st ∉ [PortState.active, .degraded, .recover] ∨ ¬ inUse → exec (.linkLossOfSignal p lane) s = .next s) ∧
     (s.portsOn = true → x.st ≠ .down → x.st ≠ .disabled → Answers (.portRetrain p) s fun t => (t.port p.val).st = .recover ∧
       (∀ q, q ≠ p.val → t.port q = s.port q) ∧
       t = { s with ports := t.ports, ras := { s.ras with calOn := if s.ras.calOn = some p.val then none else s.ras.calOn } } ∧
       (t.port p.val).retry = x.retry ∧ (t.port p.val).waiting = x.waiting ∧ (t.port p.val).credit = x.credit ∧
       (t.port p.val).seq = x.seq ∧ (t.port p.val).acked = x.acked ∧ (t.port p.val).expect = x.expect) ∧
     (s.portsOn = true → x.st = .down ∨ x.st = .disabled → Answers (.portRetrain p) s (goes .detect)) ∧
     (s.portsOn = false → exec (.portRetrain p) s = .next s)) ∧
  (∀ (p : PortNo) (lane : Fin 8) (ctrl : BitVec 32) (inv good : Bool) (s : State),
     let x := s.port p.val
     let l := tget ({} : LaneSt) x.lanes lane.val
     let c := ctrl.toNat
     let m0 := fld c 27 24
     let t0 := tget ({} : TxLane) x.tx m0
     let found := (x.lanes.filter fun e => e.2.found).length
     let left (v : Nat) : List TxFlit := ((x.retry.filter fun f => f.vc == v) ++ tget [] x.waiting v).filter fun f => f.ftype != 7
     let ends := x.width = 8 ∧ x.base = 0 ∧ x.aligning = true ∧ x.cdown = 0 ∧ m0 < 8 ∧ fld c 31 28 = 3 ∧ fld c 23 20 = 0 ∧
       (∀ m, m < 8 → m ≠ m0 → ∃ e, x.laneOf m = some e ∧ e.2.last = true ∧ e.1 ≠ lane.val) ∧
       (∀ e ∈ x.lanes, e.1 ≠ lane.val → e.2.lane ≠ m0)
     (x.st ∉ [PortState.detect, .eq, .align, .recover] → exec (.trainingFrame p lane ctrl inv good) s = .next s) ∧
     (x.st = .detect → x.aligning = false → found < 3 → Answers (.trainingFrame p lane ctrl inv good) s fun t =>
       (t.port p.val).st = .detect ∧
       tget {} (t.port p.val).lanes lane.val = { found := true, good := l.good || good, peerState := fld c 31 28, lane := m0, inverted := inv,
                                                 last := fld c 31 28 == 3 && fld c 23 20 == 0 } ∧
       (∀ k, k ≠ lane.val → tget {} (t.port p.val).lanes k = tget {} x.lanes k) ∧
       (m0 < 8 → bitN c 19 = true → fld c 15 8 = t0.cupd → (t0.preq = false ∨ t0.psel ≠ fld c 18 16) →
         (tget {} (t.port p.val).tx m0).taps = tget 0 s.presets (fld c 18 16)) ∧
       (∀ q, q ≠ p.val → t.port q = s.port q) ∧ t = { s with ports := t.ports }) ∧
     (x.st = .detect → x.aligning = false → found = 3 → l.found = false → good = false → l.good = false → (∀ e ∈ x.lanes, e.2.good = false) →
       Answers (.trainingFrame p lane ctrl inv good) s fun t => (t.port p.val).st = .eq ∧ t = { s with ports := t.ports }) ∧
     (x.st = .align → ends → Answers (.trainingFrame p lane ctrl inv good) s fun t =>
       (t.port p.val).st = .ident ∧ (t.port p.val).seq = 0 ∧ (t.port p.val).acked = 4095 ∧ (t.port p.val).expect = 0 ∧
       (t.port p.val).retry = [] ∧ (∀ v, v < 4 → tget [] (t.port p.val).waiting v = left v) ∧
       (∃ g, g.ftype = 7 ∧ tget [] (t.port p.val).waiting 4 = left 4 ++ [g]) ∧
       ∀ q, q ≠ p.val → t.port q = s.port q) ∧
     (x.st = .recover → x.back = .active → ends → Answers (.trainingFrame p lane ctrl inv good) s fun t =>
       (t.port p.val).st = .active ∧ (t.port p.val).resend = x.retry ∧ (t.port p.val).retry = x.retry ∧
       (t.port p.val).seq = x.seq ∧ (t.port p.val).acked = x.acked ∧ (t.port p.val).expect = x.expect ∧
       (t.port p.val).credit = x.credit ∧ (t.port p.val).waiting = x.waiting ∧ (t.port p.val).nak = x.nak ∧
       (t.reg Reg.LNK_RETRY_COUNT).toNat =
         min 0xFFFFFFFF ((s.reg Reg.LNK_RETRY_COUNT).toNat + if x.retry = [] then 0 else 1) ∧ ∀ q, q ≠ p.val → t.port q = s.port q))

/-- R301, R302, R304–R306: what a port sends next is the flit to replay, or else the first waiting one of the channel it
picks, which takes the next sequence number and a credit and stays until it is acknowledged, or else a NULL flit; each
with the link fields of the port and the check over what it carries. R309: the other member of the direction may hold a flit
back, so that a pair of ranks stays in order. A replay that times out sends everything unacknowledged again; the eighth in
a row takes the port to RECOVER, which keeps it all (R305). -/
def Obligations.LinkSending : Prop :=
  ∀ (p : PortNo) (f : TxFlit) (rest : List TxFlit) (s : State),
    let x := s.port p.val
    let picked := x.pick (s.port (fellow p.val))
    let sends (g : TxFlit) (seq : Nat) (t : State) : Prop := SendsFlit p.val g seq s t
    (x.streaming = false → exec (.linkFlitSend p) s = .next s) ∧
    (x.streaming = true → x.resend = f :: rest → Answers (.linkFlitSend p) s fun t =>
      (t.port p.val).resend = rest ∧ (t.port p.val).retry = x.retry ∧ (t.port p.val).seq = x.seq ∧ sends f f.seq t) ∧
    (x.streaming = true → x.resend = [] → x.retry.length < 512 → picked = some f → Answers (.linkFlitSend p) s fun t =>
      (t.port p.val).retry = x.retry ++ [{ f with seq := x.seq, buf := none }] ∧
      (t.port p.val).seq = (x.seq + 1) % 4096 ∧
      tget 0 (t.port p.val).credit f.vc = tget 0 x.credit f.vc - 1 ∧
      (∀ v, v ≠ f.vc → tget 0 (t.port p.val).credit v = tget 0 x.credit v ∧
        tget [] (t.port p.val).waiting v = tget [] x.waiting v) ∧
      tget [] (t.port p.val).waiting f.vc = (tget [] x.waiting f.vc).erase f ∧ sends f x.seq t) ∧
    (x.streaming = true → x.resend = [] → (512 ≤ x.retry.length ∨ picked = none) → Answers (.linkFlitSend p) s fun t =>
      (t.port p.val).retry = x.retry ∧ (t.port p.val).seq = x.seq ∧ (t.port p.val).waiting = x.waiting ∧
      sends { vc := 0, ftype := 0, hdr := 0, payload := [], schk := 0 } x.seq t) ∧
    (∀ v, f.vc < 4 → (x.st = .active ∨ x.st = .degraded) → (tget [] x.waiting v).head? = some f →
      (s.port (fellow p.val)).holdsBack f = true → x.head (s.port (fellow p.val)) v = none) ∧
    (x.streaming = true → x.retry ≠ [] → Answers (.linkReplayTimeout p) s fun t =>
      (t.port p.val).resend = x.retry ∧ (t.port p.val).replays = x.replays + 1 ∧ (t.port p.val).retry = x.retry ∧
      (t.port p.val).seq = x.seq ∧ (t.port p.val).acked = x.acked ∧ (t.port p.val).credit = x.credit ∧
      (t.port p.val).st = (if x.replays < 7 then x.st else .recover) ∧
      (t.reg Reg.LNK_RETRY_COUNT).toNat = min 0xFFFFFFFF ((s.reg Reg.LNK_RETRY_COUNT).toNat + 1)) ∧
    (x.streaming = false ∨ x.retry = [] → exec (.linkReplayTimeout p) s = .next s)

/-- R307, R310, R326, R328, R331, R341: a transaction that is received in order at the module it is for, for a program that runs
there, with a slot at its controller and none waiting before it, acts there and frees its buffer: a WRITE commits its sheet with its
check at the translated address and nowhere else, an ACC-WRITE whose turn has not come goes to its staging slot in RM_STAGE and one
whose turn it is is added, a READ sends the sheet back to the rank that asked, with the tag and the address of the request, by the
member port of the next hop (R303, R307; a READ with XS 1 is answered over the port it came in on, log entry 38), a DOORBELL adds its
value to its counter, a READ-RESP is counted as received. While its controller has no slot for it, it waits in its buffer (R158, log
entry 155). At another module it goes on by the member port of the next hop, on the channel of its side of the dateline (R307, R309),
and keeps its buffer. -/
def Obligations.LinkTransactions : Prop :=
  (∀ (p : PortNo) (f : LinkFlit) (k a : Nat) (s : State),
    let va := flitFd f 87 40
    let src := flitFd f 117 108
    LinkGood p.val f s → s.linkUp p.val = true → flitFd f 127 118 = s.rank → jobSlot s (flitFd f 107 92) = some k →
    f.payload.length ≤ 256 → ¬ (s.idle = 3 ∧ (s.slot k).state = .preempted) → s.linkHeld = [] →
    let whole : Prop := crc32c (padTo f.payload 256) = f.schk
    let arrives (t : State) : Prop := LinkTaken p.val f s t ∧
      tget 0 (t.port p.val).giveBack (flitFd f 162 160) = tget 0 (s.port p.val).giveBack (flitFd f 162 160) + 1 ∧
      (flitFd f 128 128 = 0 →
        tget 0 (t.tideOf k).recv (flitFd f 91 91) = tget 0 (s.tideOf k).recv (flitFd f 91 91) + 1) ∧ t.tiles = s.tiles
    let lands (a : Nat) (t : State) : Prop := t.hbmSheet a = padTo f.payload 256 ∧ t.hbmCheck a = f.schk ∧
      (∀ b, (b < a / 256 * 256 ∨ a / 256 * 256 + 256 ≤ b) → mget t.mem.hbm b = mget s.mem.hbm b) ∧
      t.mem.ts = s.mem.ts ∧ t.mem.rsv = s.mem.rsv
    let rows : List (LinkFlit → Fec → Instr) := [.linkWrite p, .linkAccWrite p, .linkRead p]
    (∀ n c, rows[n]? = some c → flitType f = n + 1 → (flitType f < 3 → whole) → linkReady s f = false → Answers (c f .clean) s fun t =>
      LinkTaken p.val f s t ∧ t.linkHeld = [(p.val, flitFd f 162 160, f)] ∧ t.mem = s.mem ∧ t.slots = s.slots ∧ t.red = s.red) ∧
    (flitType f = 1 → whole → linkReady s f = true → translate s k va .wr = .pa a → Answers (.linkWrite p f .clean) s fun t => arrives t ∧ lands a t) ∧
    (∀ r, flitType f = 2 → whole → linkReady s f = true → translate s k va .acc = .pa a → s.ream? k (flitFd f 31 20) = some r →
      let n := flitFd f 17 0
      let i := n / 128
      let m := n % 128
      let y := tget ({} : SliceSt) r.slices i
      r.red = true → r.thin = false → (owned s r).contains i = true → m < r.contrib → flitFd f 39 36 = r.fmt →
      r.st ≠ .idle → r.st ≠ .abandoned → flitFd f 91 91 = (s.slot k).span.toNat % 2 →
      (src, m, false) ∉ y.staged → (src, m, false) ∉ y.added →
      (ownTurn r y src m false = false → Answers (.linkAccWrite p f .clean) s fun t => arrives t ∧
        lands (physOf s k (slotVa s r i src m false)) t ∧
        ∃ r', t.ream? k (flitFd f 31 20) = some r' ∧
          (tget ({} : SliceSt) r'.slices i).staged = y.staged ++ [(src, m, false)] ∧
          (tget ({} : SliceSt) r'.slices i).added = y.added) ∧
      (ownTurn r y src m false = true → Answers (.linkAccWrite p f .clean) s fun t => arrives t ∧
        ∃ r', t.ream? k (flitFd f 31 20) = some r' ∧
          (tget ({} : SliceSt) r'.slices i).added = y.added ++ [(src, m, false)])) ∧
    (flitType f = 3 → linkReady s f = true → translate s k va .rd = .pa a →
      let resp (vc dst own job : Nat) : TxFlit :=
        { vc := vc, ftype := 4, hdr := hdrOf 4 0 dst own job (flitFd f 91 91) va 0 (flitFd f 15 0), payload := s.hbmSheet a,
          schk := s.hbmCheck a }
      (∀ d plus, nextHop s src = some (d, plus) → flitFd f 128 128 = 0 → Answers (.linkRead p f .clean) s fun t =>
        arrives t ∧ SameData s t ∧ Queued (memberPort s d plus (popcount (s.rank ^^^ src) 10 % 2))
          (resp (2 + b2n (wraps s d plus)) src s.rank (s.slot k).job.toNat) s t) ∧
      (flitFd f 128 128 = 1 → Answers (.linkRead p f .clean) s fun t =>
        arrives t ∧ SameData s t ∧ Queued p.val (resp 2 0 s.rank (flitFd f 107 92)) s t)) ∧
    (flitType f = 4 → whole → Answers (.linkReadResp p f .clean) s fun t => arrives t ∧ t.mem = s.mem) ∧
    (flitType f = 6 → translate s k va .wr = .pa a → Answers (.linkDoorbell p f .clean) s fun t =>
      arrives t ∧ SameData s t ∧
      ∀ c, tget 0 (t.redSlot k).doorbells c =
        tget 0 (s.redSlot k).doorbells c + if c = flitFd f 5 0 then BitVec.ofNat 64 (leAt f.payload 0 8) else 0)) ∧
  (∀ (p : PortNo) (f : LinkFlit) (d : Nat) (plus : Bool) (s : State),
    let src := flitFd f 117 108
    let dst := flitFd f 127 118
    let vc := flitFd f 162 160
    LinkGood p.val f s → s.linkUp p.val = true → dst ≠ s.rank → nextHop s dst = some (d, plus) →
    let whole : Prop := crc32c (padTo f.payload 256) = f.schk
    let q := memberPort s d plus (popcount (src ^^^ dst) 10 % 2)
    let v := 2 * (vc / 2) + b2n (wraps s d plus || (portDim p.val == d && vc % 2 == 1))
    let passes (ty : Nat) (t : State) : Prop := LinkTaken p.val f s t ∧ t.mem = s.mem ∧ t.slots = s.slots ∧
      ∃ g, tget [] (t.port q).waiting v = tget [] (s.port q).waiting v ++ [g] ∧ g.ftype = ty ∧ g.payload = f.payload ∧
        g.schk = f.schk ∧ g.buf = some (p.val, vc) ∧ g.vc = v ∧ g.hdr % 2 ^ 130 = f.hdr.toNat % 2 ^ 130
    (flitType f = 1 → whole → Answers (.linkWrite p f .clean) s (passes 1)) ∧
    (flitType f = 2 → whole → Answers (.linkAccWrite p f .clean) s (passes 2)) ∧
    (flitType f = 3 → Answers (.linkRead p f .clean) s (passes 3)) ∧
    (flitType f = 4 → whole → Answers (.linkReadResp p f .clean) s (passes 4)) ∧
    (flitType f = 6 → Answers (.linkDoorbell p f .clean) s (passes 6)))

/-- R300, R303, R305, R306, R310, R312, R316, R318: flits of one hop. A NULL flit brings its credits, up to the buffers there
are, and its acknowledgement, and a corrected codeword that begins in it is counted; a TIDE record of a child is kept for the
round, one for the next span for when it starts, and, while a program of several modules awaits its START, for that (R358); a decision
of the parent for the round that stands passes, or is counted again, here and goes down to the children, and one that does not fit
changes nothing; a record of any other span, or an ABORT, aborts the tide and ends the program (R313, R314); IDENT of a peer that matches starts traffic, with the credits of the receive buffers, and a mismatch leads to STANDBY;
FAILOVER notes the last flit that the peer received; a reserved type is discarded and counted. A flit in a codeword that cannot be
corrected, or that the check finds bad, changes nothing but its count, that of a codeword that begins in it and, for a sequenced one,
the NAK to send; a port that receives no stream takes none. -/
def Obligations.LinkControlFlits : Prop :=
  ∀ (p : PortNo) (f : LinkFlit) (s : State),
    let x := s.port p.val
    let b := f.payload
    let good := x.rxPos = 0 ∨ x.rxBad = false
    (x.streaming = true → good → f.fcrc = flitCrc f.hdr f.payload f.schk → flitType f = 0 → flitFd f 163 163 = 0 →
      let n := (flitFd f 175 164 + 4096 - x.acked) % 4096
      0 < n → n ≤ x.retry.length → Answers (.linkNull p f .clean) s fun t =>
        (t.port p.val).retry = x.retry.drop n ∧ (t.port p.val).acked = flitFd f 175 164 ∧ (t.port p.val).replays = 0 ∧
        (t.port p.val).seq = x.seq ∧ t = { s with ports := t.ports }) ∧
    (LinkGood p.val f s →
      (flitType f = 0 → Answers (.linkNull p f .clean) s fun t => (t.port p.val).expect = x.expect ∧
        (∀ v, v < 5 → tget 0 (t.port p.val).credit v = min (bufCap v) (tget 0 x.credit v + flitFd f (135 + 6 * v) (130 + 6 * v))) ∧
        t = { s with ports := t.ports }) ∧
      (flitType f = 0 → cwBegins x.rxPos = true → Answers (.linkNull p f .fixed) s fun t =>
        (t.reg (Reg.port p.val 0x0C)).toNat = min 0xFFFFFFFF ((s.reg (Reg.port p.val 0x0C)).toNat + 1) ∧
        t = { s with ports := t.ports, regs := t.regs }) ∧
      (∀ k, flitType f = 5 → s.linkUp p.val = true → tideSlot s = some k →
        let d := s.tideOf k
        let span := (s.slot k).span.toNat
        let theirs := leAt b 4 4
        let rec' := (leAt b 2 2, p.val % 6, leAt b 8 8, leAt b 16 8)
        let becomes (e : Tide) (t : State) : Prop := LinkTaken p.val f s t ∧ t.slot k = { s.slot k with tide := e } ∧
          (∀ m, m ≠ k → t.slot m = s.slot m) ∧ t = { s with ports := t.ports, slots := t.slots }
        let goesDown (out : Nat) (t : State) : Prop := ∀ c ∈ childDirs s, ∃ n,
            tget [] (t.port (tidePort s (portDim c) (portPlus c))).waiting 4 =
            tget [] (s.port (tidePort s (portDim c) (portPlus c))).waiting 4 ++ [{ hopFlit 5 (tideRec 2 out d.round span 0 0 0) with ord := n }]
        let fits := d.upSent = true ∧ d.passed = false ∧ d.recount = false ∧ leAt b 2 2 = d.round
        let aborts (t : State) : Prop := (t.port p.val).expect = (x.expect + 1) % 4096 ∧
          (t.reg Reg.LNK_TIDETO_COUNT).toNat = min 0xFFFFFFFF ((s.reg Reg.LNK_TIDETO_COUNT).toNat + 1) ∧
          ((s.slot k).state = .running → (t.slot k).state = .stopping ∨ (t.slot k).state = .ended) ∧
          ((s.slot k).state = .preempted → (t.slot k).state = .ended)
        let ends := (s.slot k).teardown = false ∧ ((s.slot k).state = .preempted ∨ (s.running = some k ∧ (s.slot k).state = .running))
        (leAt b 0 1 = 1 → leAt b 1 1 ≠ 3 → theirs = span → Answers (.linkTide p f .clean) s (becomes { d with ups := d.ups ++ [rec'] })) ∧
        (leAt b 0 1 = 1 → leAt b 1 1 ≠ 3 → d.passed = true → theirs = (span + 1) % 2 ^ 32 →
          Answers (.linkTide p f .clean) s (becomes { d with early := d.early ++ [rec'] })) ∧
        (leAt b 0 1 = 2 → leAt b 1 1 = 1 → theirs = span → fits → Answers (.linkTide p f .clean) s fun t =>
          t.slot k = { s.slot k with tide := { d with passed := true } } ∧ goesDown 1 t ∧
          t.rf Reg.LNK_TIDE_LAST 31 16 = (d.round + 1) % 65536 ∧
          t = { s with ports := t.ports, slots := t.slots, linkN := t.linkN, regs := t.regs }) ∧
        (leAt b 0 1 = 2 → leAt b 1 1 = 2 → theirs = span → fits → Answers (.linkTide p f .clean) s fun t =>
          t.slot k = { s.slot k with tide := { d with recount := true } } ∧ goesDown 2 t ∧
          t = { s with ports := t.ports, slots := t.slots, linkN := t.linkN }) ∧
        (leAt b 0 1 = 2 → leAt b 1 1 ≠ 3 → theirs = span → ¬ fits → Answers (.linkTide p f .clean) s (becomes d)) ∧
        (leAt b 1 1 = 3 ∨ (theirs ≠ span ∧ ¬ (leAt b 0 1 = 1 ∧ d.passed = true ∧ theirs = (span + 1) % 2 ^ 32)) → ends →
          Answers (.linkTide p f .clean) s aborts)) ∧
      (flitType f = 5 → s.linkUp p.val = true → tideSlot s = none → awaitsStart s = true → leAt b 0 1 = 1 → leAt b 1 1 ≠ 3 →
        Answers (.linkTide p f .clean) s fun t => LinkTaken p.val f s t ∧
          t.tideHeld = s.tideHeld ++ [(leAt b 4 4, leAt b 2 2, p.val % 6, leAt b 8 8, leAt b 16 8)] ∧
          t = { s with ports := t.ports, tideHeld := t.tideHeld }) ∧
      (let agrees := (leAt b 4 4, leAt b 8 2) = ((s.reg Reg.LNK_DTAG).toNat, shapeRec s) ∧
         (leAt b 1 1, fld (leAt b 2 2) 9 0) = (mate p.val, s.neighbourRank p.val)
       flitType f = 7 → leAt b 0 1 = 1 → x.st = .ident →
         (s.external p.val = true ∨ (agrees ∧ s.rf Reg.LNK_SHAPE 31 31 = 1) → multiAdmitted s = false →
           Answers (.linkMgmtIdent p f .clean) s fun t =>
             (t.port p.val).st = (if x.width = 8 then .active else .degraded) ∧
             (∀ v, v < 5 → tget 0 (t.port p.val).credit v = bufCap v) ∧ t = { s with ports := t.ports }) ∧
         (s.external p.val = false → ¬ agrees → Answers (.linkMgmtIdent p f .clean) s fun t =>
           (t.port p.val).st = .standby ∧ t.mem = s.mem ∧ t.tiles = s.tiles)) ∧
      (flitType f = 7 → leAt b 0 1 = 2 → (s.port (mate (leAt b 12 1 % 12))).failing = false →
        Answers (.linkMgmtFailover p f .clean) s fun t => LinkTaken p.val f s t ∧
          (t.port (mate (leAt b 12 1 % 12))).lostSeq = some (leAt b 10 2 % 4096) ∧ t = { s with ports := t.ports }) ∧
      (8 ≤ flitType f → Answers (.linkReservedFlit p f .clean) s fun t => LinkTaken p.val f s t ∧
        (t.reg Reg.LNK_DROP_COUNT).toNat = min 0xFFFFFFFF ((s.reg Reg.LNK_DROP_COUNT).toNat + 1) ∧
        t = { s with ports := t.ports, regs := t.regs })) ∧
    (let rows : List (LinkFlit → Fec → Instr) := [.linkWrite p, .linkAccWrite p, .linkRead p, .linkReadResp p, .linkTide p,
       .linkDoorbell p, .linkMgmtIdent p, .linkMgmtFailover p, .linkReservedFlit p]
     let passed (fails : Bool) : Port :=
       { x with rxPos := (x.rxPos + 2304) % 5140, rxBad := if cwBegins x.rxPos then fails else x.rxBad }
     let counted (r : RegNo) (y : Port) (t : State) : Prop :=
       (∀ c, c = r ∨ c = Reg.port p.val 0x14 → (t.reg c).toNat = min 0xFFFFFFFF ((s.reg c).toNat + 1)) ∧ t.port p.val = y ∧
       (∀ q, q ≠ p.val → t.port q = s.port q) ∧ t = { s with ports := t.ports, regs := t.regs }
     (x.streaming = false → ∀ bad, (∀ c ∈ rows, exec (c f bad) s = .next s) ∧ exec (.linkNull p f bad) s = .next s) ∧
     (x.streaming = true → cwBegins x.rxPos = true →
       (∀ c ∈ rows, Answers (c f .lost) s (counted (Reg.port p.val 0x10) { passed true with nak := true })) ∧
       Answers (.linkNull p f .lost) s (counted (Reg.port p.val 0x10) (passed true))) ∧
     (x.streaming = true → cwBegins x.rxPos = false → x.rxBad = true → x.rxPos ≠ 0 → ∀ e,
       (∀ c ∈ rows, Answers (c f e) s (counted (Reg.port p.val 0x14) { passed true with nak := true })) ∧
       Answers (.linkNull p f e) s (counted (Reg.port p.val 0x14) (passed true))) ∧
     (x.streaming = true → good → f.fcrc ≠ flitCrc f.hdr f.payload f.schk →
       (∀ c ∈ rows, Answers (c f .clean) s (counted (Reg.port p.val 0x14) { passed false with nak := true })) ∧
       Answers (.linkNull p f .clean) s (counted (Reg.port p.val 0x14) (passed false))))

/-- R311–R314: once its children have reported, a module that has arrived sends the sums to its parent, or decides at the
root: PASS on equal sums, another round when fewer were received than sent, each told to its children; more received than sent aborts the
tide with cause 2 and ends the program. The next round starts when its time is
over. A tide that times out is counted and ends the program, a PREEMPTED one where it is stored. Each slot has a tide of its own;
no other slot changes. Without a program of several modules nothing happens. -/
def Obligations.TideRounds : Prop :=
  ∀ (k : Nat) (s : State),
    let d := s.tideOf k
    let span := (s.slot k).span.toNat
    let now := d.ups.filter fun u => u.1 == d.round
    let sent := now.foldl (fun n u => n + u.2.2.1) (ownSent s k)
    let recv := now.foldl (fun n u => n + u.2.2.2) (ownRecv s k)
    let ready := tideSlot s = some k ∧ d.arrived = true ∧ d.upSent = false ∧ d.recount = false ∧ d.passed = false ∧
      childrenIn s k = true
    let goesDown (out : Nat) (t : State) : Prop := ∀ c ∈ childDirs s, ∃ n,
        tget [] (t.port (tidePort s (portDim c) (portPlus c))).waiting 4 =
        tget [] (s.port (tidePort s (portDim c) (portPlus c))).waiting 4 ++ [{ hopFlit 5 (tideRec 2 out d.round span 0 0 0) with ord := n }]
    let ends (t : State) : Prop := ((s.slot k).state = .running → (t.slot k).state = .stopping ∨ (t.slot k).state = .ended) ∧
      ((s.slot k).state = .preempted → (t.slot k).state = .ended) ∧
      (t.reg Reg.LNK_TIDETO_COUNT).toNat = min 0xFFFFFFFF ((s.reg Reg.LNK_TIDETO_COUNT).toNat + 1)
    let mayEnd := (s.slot k).teardown = false ∧ ((s.slot k).state = .preempted ∨ (s.running = some k ∧ (s.slot k).state = .running))
    let becomes (e : Tide) (t : State) : Prop := t.slot k = { s.slot k with tide := e } ∧ ∀ m, m ≠ k → t.slot m = s.slot m
    (tideSlot s = none → exec .tideUpSend s = .next s ∧ exec .tideTimeout s = .next s ∧ exec .tideRecountExpiry s = .next s) ∧
    (∀ c, ready → parentDir s = some c → Answers .tideUpSend s fun t => becomes { d with upSent := true } t ∧
      (let q := tidePort s (portDim c) (portPlus c)
       tget [] (t.port q).waiting 4 =
         tget [] (s.port q).waiting 4 ++ [{ hopFlit 5 (tideRec 1 0 d.round span sent recv 0) with ord := s.linkN }]) ∧
      t = { s with slots := t.slots, ports := t.ports, linkN := s.linkN + 1 }) ∧
    (ready → parentDir s = none → sent = recv → Answers .tideUpSend s fun t =>
      becomes { d with upSent := true, passed := true } t ∧ t.rf Reg.LNK_TIDE_LAST 31 16 = (d.round + 1) % 65536 ∧ goesDown 1 t ∧
      t = { s with slots := t.slots, ports := t.ports, linkN := t.linkN, regs := t.regs }) ∧
    (ready → parentDir s = none → recv < sent → Answers .tideUpSend s fun t =>
      becomes { d with upSent := true, recount := true } t ∧ goesDown 2 t ∧
      t = { s with slots := t.slots, ports := t.ports, linkN := t.linkN }) ∧
    (ready → parentDir s = none → sent < recv → mayEnd → Answers .tideUpSend s ends) ∧
    (tideSlot s = some k → d.recount = true → Answers .tideRecountExpiry s fun t =>
      becomes { d with recount := false, upSent := false, round := d.round + 1 } t ∧ t = { s with slots := t.slots }) ∧
    (tideSlot s = some k → d.recount = false → exec .tideRecountExpiry s = .next s) ∧
    (tideSlot s = some k → d.arrived = true → d.passed = true → exec .tideTimeout s = .next s) ∧
    (tideSlot s = some k → d.arrived = true → d.passed = false → mayEnd → Answers .tideTimeout s ends)

/-- R329, R337, R338, R340: the next contribution of a ream that has left FILL goes to the owner of its slice as an ACC-WRITE,
and the next sheet of a gather slice as a WRITE to the rank it is for: by the member port of the next hop, on the channel of its side of
the dateline, with that rank in DST (R302, R307). A dense sheet leaves with its data and check as they stand in HBM, of a thinned ream
the sparse or the remainder sheet of the slice with its own check. It is sent once its controller has a slot for levee-local traffic (R158); with none left, or while the program does not run, nothing is sent. R326, R330, R331, R334: the
contribution to a sum whose turn it is in rank order is added, once; of a dense FP32 ream another rank's is taken from its staging
slot and added element by element to the accumulators of its slice in RM_STAGE, and leaves the stage. With none nothing is added; with
the last one the slice is summed. A slice that waits too long is counted and logged once per ream, and after its timeout
the ream is abandoned. -/
def Obligations.Reams : Prop :=
  (∀ (k : SlotNo) (j : Fin 4096) (r : Ream) (s : State), s.ream? k.val j.val = some r →
     let par := (s.slot k.val).span.toNat % 2
     let job := (s.slot k.val).job.toNat
     let leaves (dst d : Nat) (plus : Bool) (ty va attr aux : Nat) (data : Bytes) (chk : Word) (t : State) : Prop :=
       Queued (memberPort s d plus (popcount (s.rank ^^^ dst) 10 % 2))
         { vc := b2n (wraps s d plus), ftype := ty, hdr := hdrOf ty 0 dst s.rank job par va attr aux, payload := data, schk := chk } s t
     (∀ i m rem, r.scattering = true → s.sends k.val = true → nthSend s r r.sendPos = some (i, m, rem) →
       let pa := physOf s k.val (r.src + 32768 * i + 256 * m)
       let o := r.ownerOf s.domN i
       let built := if rem then remainderSheet r (srcElems s k.val r i) m else sparseSheet r (srcElems s k.val r i) m
       (∀ d plus, localSlot s pa = true → nextHop s o = some (d, plus) → Answers (.reamScatterSend k j) s fun t =>
         t.ream? k.val j.val = some { r with sendPos := r.sendPos + 1 } ∧ SameData s t ∧
         leaves o d plus 2 (r.sumVa + i / s.domN * r.sumBytes) (r.fmt * 16) (j.val * 2 ^ 20 + (if rem then 131072 else 0) + 128 * i + m)
           (if r.thin then built else s.hbmSheet pa) (if r.thin then crc32c built else s.hbmCheck pa) t) ∧
       (localSlot s pa = false → exec (.reamScatterSend k j) s = .next s)) ∧
     (r.scattering = false ∨ s.sends k.val = false ∨ nthSend s r r.sendPos = none →
       exec (.reamScatterSend k j) s = .next s) ∧
     (∀ o g b, r.st = .gather ∨ r.st = .done → r.gath = true → s.sends k.val = true →
       nthGather s r r.gatherPos = some (o, g) → r.gbase = some b →
       let pa := physOf s k.val (b + 256 * g)
       (∀ d plus, localSlot s pa = true → nextHop s o = some (d, plus) → Answers (.reamGatherSend k j) s fun t =>
         t.ream? k.val j.val = some { r with gatherPos := r.gatherPos + 1 } ∧ SameData s t ∧
         leaves o d plus 1 (b + 256 * g) 0 0 (s.hbmSheet pa) (s.hbmCheck pa) t) ∧
       (localSlot s pa = false → exec (.reamGatherSend k j) s = .next s)) ∧
     ((r.st ≠ .gather ∧ r.st ≠ .done) ∨ r.gath = false ∨ s.sends k.val = false ∨ nthGather s r r.gatherPos = none →
       exec (.reamGatherSend k j) s = .next s)) ∧
  (∀ (k : SlotNo) (j : Fin 4096) (i : Fin 2048) (us : BitVec 32) (r : Ream) (s : State), s.ream? k.val j.val = some r →
     let y := tget ({} : SliceSt) r.slices i.val
     let may := (owned s r).contains i.val = true ∧ r.red = true ∧ (r.st = .fill ∨ r.scattering = true)
     (∀ q m, may → nextAdd s r y false = some (q, m) →
       localSlot s (physOf s k.val (if q = s.rank then r.src + 32768 * i.val + 256 * m else slotVa s r i.val q m false)) = true →
       Answers (.reamStagedAdd k j i us) s fun t => ∃ r', t.ream? k.val j.val = some r' ∧
         (tget ({} : SliceSt) r'.slices i.val).added = y.added ++ [(q, m, false)]) ∧
     (∀ q m, may → r.thin = false → r.fmt = 0xA → nextAdd s r y false = some (q, m) → q ≠ s.rank →
       let pa := physOf s k.val (slotVa s r i.val q m false)
       let acc := physOf s k.val (accVa s r i.val false + 256 * m)
       let old := if q = 0 then List.replicate 64 0 else unpackElems 0xA (s.hbmSheet acc)
       let last := (y.added.filter fun e => e.2.2 == false).length + 1 = s.domN * r.contrib
       let added (t : State) (P : SliceSt → Prop) : Prop := ∃ r', t.ream? k.val j.val = some r' ∧
         (let y' := tget ({} : SliceSt) r'.slices i.val
          y'.added = y.added ++ [(q, m, false)] ∧ (q, m, false) ∉ y'.staged ∧ P y')
       (localSlot s pa = true → ¬ last → Answers (.reamStagedAdd k j i us) s fun t => added t (fun _ => True) ∧
         t.hbmSheet acc = packElems 0xA (old.zipWith accTake (unpackElems 0xA (s.hbmSheet pa))) ∧
         (t.hbmCheck acc) = crc32c (t.hbmSheet acc) ∧
         (∀ a, a < acc / 256 * 256 ∨ acc / 256 * 256 + 256 ≤ a → mget t.mem.hbm a = mget s.mem.hbm a) ∧ t.tiles = s.tiles) ∧
       (localSlot s pa = true → last → Answers (.reamStagedAdd k j i us) s fun t => added t fun y' => y'.summed = true) ∧
       (localSlot s pa = false → exec (.reamStagedAdd k j i us) s = .next s)) ∧
     (¬ may ∨ (nextAdd s r y false = none ∧ nextAdd s r y true = none) → exec (.reamStagedAdd k j i us) s = .next s) ∧
     (waitingSlice s r i.val = true → r.lateLogged = false → Answers (.reamLate k j i) s fun t =>
       t.ream? k.val j.val = some { r with lateLogged := true } ∧ (t.reg Reg.RED_STATUS).getLsbD 0 = true ∧
       (t.reg Reg.RED_LATE_COUNT).toNat = min 0xFFFFFFFF ((s.reg Reg.RED_LATE_COUNT).toNat + 1) ∧ t.mem = s.mem) ∧
     (waitingSlice s r i.val = false ∨ r.lateLogged = true → exec (.reamLate k j i) s = .next s) ∧
     (waitingSlice s r i.val = true → Answers (.reamTimeout k j i) s fun t =>
       t.ream? k.val j.val = some { r with st := .abandoned } ∧ (t.reg Reg.RED_STATUS).getLsbD 1 = true ∧
       (t.reg Reg.RED_TIMEOUT_COUNT).toNat = min 0xFFFFFFFF ((s.reg Reg.RED_TIMEOUT_COUNT).toNat + 1) ∧ t.mem = s.mem) ∧
     (waitingSlice s r i.val = false → exec (.reamTimeout k j i) s = .next s))

/-! ### The host interface -/

/-- R349–R352: a doorbell write that names an entry of the ring and does not go back moves its index; any other is refused
and counted and moves nothing. QC_EN with valid depths and bases starts a queue that is not active with its indices at
0 and phase 1; QC_EN cleared stops it, and no entry waits for it any more. R373: before the end of stage 3 no such write is
served. R352–R355: the entry whose turn it is is fetched, which holds a credit and moves the head of its queue; a queue
whose turn it is not is not fetched from. The oldest waiting entry of a queue with room in its ring is written at the
tail with the phase of the round, and its credit is free; without room it waits. R348: the first entry of a batch fires the
vector of its queue: its message is sent, or, while the vector is masked, its pending bit is set. -/
def Obligations.HostQueues : Prop :=
  (∀ (f : FnNo) (q : Fin 16) (v : Word) (s : State),
     let x := s.hq f.val q.val
     let n := v.toNat % 4096
     let ds := s.sqDepth f.val q.val
     let dc := s.cqDepth f.val q.val
     let others (t : State) : Prop := ∀ g r, g * 16 + r ≠ f.val * 16 + q.val → t.hq g r = s.hq g r
     let refused (t : State) : Prop := t.hq f.val q.val = x ∧ others t ∧
       (t.reg (Reg.fn f.val 4)).toNat = min 0xFFFFFFFF ((s.reg (Reg.fn f.val 4)).toNat + 1) ∧ t.mem = s.mem
     let sqBad := x.enabled = false ∨ ds ≤ n ∨ (n + ds - x.sqHead) % ds < (x.sqTail + ds - x.sqHead) % ds
     let cqBad := x.enabled = false ∨ dc ≤ n ∨ (x.cqTail + dc - x.cqHead) % dc < (n + dc - x.cqHead) % dc
     let r := Reg.queue f.val q.val 0x10
     (s.served = true →
       (¬ sqBad → Answers (.doorbellSqTail f q v) s fun t => t.hq f.val q.val = { x with sqTail := n } ∧ others t) ∧
       (sqBad → Answers (.doorbellSqTail f q v) s refused) ∧
       (¬ cqBad → Answers (.doorbellCqHead f q v) s fun t => t.hq f.val q.val = { x with cqHead := n } ∧ others t) ∧
       (cqBad → Answers (.doorbellCqHead f q v) s refused) ∧
       (v.getLsbD 31 = true → x.active = false → s.rf r 31 31 = 0 → 1 ≤ wfld v 3 0 → wfld v 3 0 ≤ 12 → 1 ≤ wfld v 7 4 →
         wfld v 7 4 ≤ 12 → s.sqBase f.val q.val ≠ 0 → s.cqBase f.val q.val ≠ 0 → Answers (.queueEnable f q v) s fun t =>
           t.hq f.val q.val = { enabled := true, active := true } ∧ others t ∧
           t.sqDepth f.val q.val = 2 ^ wfld v 3 0 ∧ t.cqDepth f.val q.val = 2 ^ wfld v 7 4) ∧
       (v.getLsbD 31 = false → s.rf r 31 31 = 1 → Answers (.queueEnable f q v) s fun t =>
           (t.hq f.val q.val).enabled = false ∧ ∀ y ∈ t.host.waiting, ¬ (y.fn = f ∧ y.q = q))) ∧
     (s.served = false → exec (.doorbellSqTail f q v) s = .next s ∧ exec (.doorbellCqHead f q v) s = .next s ∧
       exec (.queueEnable f q v) s = .next s)) ∧
  (∀ (f : FnNo) (q : Fin 16) (x : Compl) (s : State),
     let y := s.hq f.val q.val
     let d := s.cqDepth f.val q.val
     let mine := s.host.waiting.find? fun x => x.fn.val == f.val && x.q.val == q.val
     let room := y.enabled = true ∧ (y.cqTail + d - y.cqHead) % d < d - 1
     let v := f.val * 32 + q.val
     let first := s.host.batch ≠ some (f.val * 16 + q.val)
     let masked := (tfind s.msixMask v).isSome = true
     (nextFetch s = some (f.val, q.val) → Answers (.submissionFetch f q) s fun t =>
       t.host.accepted = s.host.accepted ++
         [{ c := parseCmd f q (s.hostRead (s.sqBase f.val q.val + 128 * y.sqHead) 128) }] ∧
       t.hq f.val q.val = { y with sqHead := (y.sqHead + 1) % s.sqDepth f.val q.val } ∧
       tget 0 t.host.used f.val = tget 0 s.host.used f.val + 1 ∧ t.host.rrFn = (f.val + 1) % 9 ∧
       tget 0 t.host.rrQ f.val = (q.val + 1) % 16 ∧ t = { s with host := t.host }) ∧
     (nextFetch s ≠ some (f.val, q.val) → exec (.submissionFetch f q) s = .next s) ∧
     (mine = some x → room → Answers (.completionWrite f q) s fun t =>
       t.host.waiting = s.host.waiting.erase x ∧
       (∀ a, mget t.host.mem a =
         if s.cqBase f.val q.val + 32 * y.cqTail ≤ a ∧ a < s.cqBase f.val q.val + 32 * y.cqTail + 32 then
           (complBytes x y.sqHead y.phase).getD (a - (s.cqBase f.val q.val + 32 * y.cqTail)) 0
         else mget s.host.mem a) ∧
       t.hq f.val q.val = { y with cqTail := if y.cqTail + 1 = d then 0 else y.cqTail + 1,
                                   phase := if y.cqTail + 1 = d then !y.phase else y.phase } ∧
       tget 0 t.host.used f.val = tget 0 s.host.used f.val - (if x.credit then 1 else 0) ∧
       tget 0 t.irq v = tget 0 s.irq v + (if first ∧ ¬ masked then 1 else 0) ∧
       (first → masked → (tfind t.msixPend v).isSome = true) ∧
       t.host.batch = some (f.val * 16 + q.val) ∧
       t = { s with host := t.host, irq := t.irq, msixPend := t.msixPend }) ∧
     (mine = none → exec (.completionWrite f q) s = .next s) ∧
     (mine = some x → ¬ room → exec (.completionWrite f q) s = .next s))

/-- R141, R142, R264, R357, R359, R365: ADMIT of an image that passes every check into a slot that is EMPTY, the one it
names or, where it names none, the lowest, makes it ADMITTED with its reservation; an image that fails one ends with status
0x04 and its reason, host memory that cannot be read with 0x05; a slot that is not EMPTY ends it with status 0x02 or, of another function, 0x07. RELEASE of a slot
that stands empties it and zero-fills its frames. QUOTA sets the quota of a VF for PF0 alone. A reserved opcode ends with
status 0x01; an entry is no command but the one its opcode names. -/
def Obligations.AdmitAndRelease : Prop :=
  ∀ (c : HostCmd) (k : Nat) (s : State),
    let op := c.op.toNat
    let n := c.len.toNat
    let checked := loadCheck s.domN s.rank (s.rf Reg.ID_DLSET 7 0) (s.hostRead c.haddr.toNat n) n
    let into := c.slot.toNat = k ∨ (c.slot.toNat = 0xFF ∧ ∀ j < k, (s.slot j).state ≠ .empty)
    let f := argAt c 32 1
    let q : FnQuota := ⟨argAt c 36 4, argAt c 40 1, argAt c 42 2⟩
    let others := (List.range 9).foldl (fun n g => if g = f then n else n + (s.quotaOf g).credits) 0
    let turned (status : Nat) (t : State) : Prop := t.slots = s.slots ∧ t.mem = s.mem ∧ Ends c status s t
    (tearing s c.fn = true → exec (.admitCmd c) s = .next s) ∧
    (op = 1 → Starts c [] s → tearing s c.fn = false → k < 16 →
      (into → (s.slot k).state = .empty → dmaFails s c.haddr.toNat n = false →
        (∀ im r, checked = .ok im → overQuota s c.fn im.hbm = false → s.pwr.tripped = false → reserve s im = some r →
          Answers (.admitCmd c) s fun t => (t.slot k).state = .admitted ∧ (t.slot k).owner = some c.fn ∧
            (t.slot k).frames = r.frames ∧ (t.slot k).save = some r.save ∧ (∀ j, j ≠ k → t.slot j = s.slot j) ∧
            Ends c 0 s t ∧ t.tiles = s.tiles) ∧
        (∀ r, checked = .error r → r.reason < 256 → Answers (.admitCmd c) s fun t =>
          turned 4 t ∧ t.rf Reg.PRG_REJECT 31 24 = r.reason)) ∧
      (into → (s.slot k).state = .empty → dmaFails s c.haddr.toNat n = true → Answers (.admitCmd c) s (turned 5)) ∧
      (c.slot.toNat = k → (s.slot k).state ≠ .empty →
        Answers (.admitCmd c) s (turned (if (s.slot k).owner = some c.fn then 2 else 7)))) ∧
    (op = 5 → Starts c [] s → OwnsSlot c k s →
      ((s.slot k).state ∈ [SlotState.admitted, .preempted, .ended] → Answers (.release c) s fun t =>
        t.slot k = {} ∧ (∀ j, j ≠ k → t.slot j = s.slot j) ∧ Ends c 0 s t ∧
        ∀ r ∈ (s.slot k).frames, ∀ a, r.1 * 0x200000 ≤ a → a < (r.1 + r.2) * 0x200000 → mget t.mem.hbm a = 0) ∧
      ((s.slot k).state ∉ [SlotState.admitted, .preempted, .ended] → Answers (.release c) s (turned 2))) ∧
    (op = 9 → Starts c [(32, 1), (36, 4), (40, 1), (42, 2)] s →
      (c.fn.val = 0 → 1 ≤ f → f ≤ 8 → q.gib ≤ 0xFFF → q.slots ≤ 16 → q.credits ≤ 0x1FF → others + q.credits ≤ 320 →
        Answers (.quota c) s fun t => t.quotaOf f = q ∧ (∀ g, g ≠ f → t.quotaOf g = s.quotaOf g) ∧ Ends c 0 s t) ∧
      (c.fn.val ≠ 0 → Answers (.quota c) s fun t => (∀ g, t.quotaOf g = s.quotaOf g) ∧ Ends c 7 s t)) ∧
    (op = 0 ∨ 9 < op → Starts c [(32, 96)] s → Answers (.reservedCommand c) s (turned 1)) ∧
    (1 ≤ op → op ≤ 9 → exec (.reservedCommand c) s = .next s) ∧
    (op ≠ 1 → exec (.admitCmd c) s = .next s) ∧ (op ≠ 2 → exec (.start c) s = .next s) ∧
    (op ≠ 3 → exec (.preempt c) s = .next s) ∧ (op ≠ 4 → exec (.resume c) s = .next s) ∧
    (op ≠ 5 → exec (.release c) s = .next s) ∧ (op ≠ 6 → exec (.copyIn c) s = .next s) ∧
    (op ≠ 7 → exec (.copyOut c) s = .next s) ∧ (op ≠ 8 → exec (.abort c) s = .next s) ∧ (op ≠ 9 → exec (.quota c) s = .next s)

/-- R167, R171, R262, R357, R358, R375, R391: START of an ADMITTED slot on a grid that is free writes the values it gives for the patches
into the slot's save area, loads tile stores, instruction memories and registers of the grid from there, and puts the program at cycle 0
of the span it names, at once, or, with LL_EN in effect, after the governor has prepared, for which it waits; RESUME makes a PREEMPTED
slot RESTORING. A value outside its patch ends START with status 0x01. On a busy grid both end with status 0x03, in another state with 0x02. PREEMPT makes the running slot
STOPPING, unless a boundary holds it for a forced window, and joins a pre-emption under way; ABORT stops a RUNNING slot
without a save, at once where everything on the grid has stopped; each waits for its slot. R359: a host command that names a slot of another function ends with status 0x07,
one that names a slot without an owner with 0x02, one that names no slot with 0x01; nothing else changes than its
entry. -/
def Obligations.ProgramCommands : Prop :=
  (∀ (c : HostCmd) (k : Nat) (s : State), OwnsSlot c k s →
     let op := c.op.toNat
     let st (t : State) : SlotState := (t.slot k).state
     let busy := s.gridBusy = true ∨ s.pwr.preload = true
     let turned (status : Nat) (t : State) : Prop := t.slots = s.slots ∧ t.mem = s.mem ∧ t.tiles = s.tiles ∧ Ends c status s t
     (op = 2 → Starts c [(32, 14), (48, 64)] s →
       (∀ vals, st s = .admitted → ¬ busy → startPatches c (s.slot k) = some vals →
         (s.leads = false → Answers (.start c) s fun t =>
           st t = .running ∧ t.cycle = 0 ∧ (t.slot k).span = BitVec.ofNat 32 (argAt c 40 4) ∧
           (t.slot k).job = BitVec.ofNat 16 (argAt c 44 2) ∧ (t.slot k).seed = BitVec.ofNat 64 (argAt c 32 8) ∧ Ends c 0 s t ∧
           ∀ f, (s.slot k).save = some f →
             let base := f * 0x40000000
             let hbm := (vals.foldl (fun u v => putPatch f v.1 v.2 u) s).mem.hbm
             t.mem.hbm = hbm ∧ t.mem.ts = tregion hbm base rsvOffset ∧
               ∀ n ∈ (s.slot k).coded, t.tile n = { tileOf (tregion hbm (base + ctlOffset + 0x1000 * n) 0x1000)
                 (imemOf (tregion hbm (base + imemOffset + 0x8000 * n) 0x8000)) with nextAt := 0 }) ∧
         (s.leads = true → Answers (.start c) s fun t =>
           t.slots = s.slots ∧ t.mem = s.mem ∧ t.tiles = s.tiles ∧ t.pwr.preload = true ∧ (opStart, c) ∈ t.host.waits)) ∧
       (st s = .admitted → ¬ busy → startPatches c (s.slot k) = none → Answers (.start c) s (turned 1)) ∧
       (st s = .admitted → busy → Answers (.start c) s (turned 3)) ∧
       (st s ≠ .admitted → Answers (.start c) s (turned 2))) ∧
     (Starts c [] s →
       (op = 3 →
         (s.running = some k → st s = .running → s.ras.hold = false → Answers (.preempt c) s fun t =>
           st t = .stopping ∧ t.prState = 1 ∧ (opPreempt, c) ∈ t.host.waits ∧ t.tiles = s.tiles ∧ t.mem = s.mem) ∧
         (s.running = some k → (st s = .running ∧ s.ras.hold = true) ∨ (st s = .stopping ∧ (s.slot k).ending = none) →
           Answers (.preempt c) s fun t =>
             (opPreempt, c) ∈ t.host.waits ∧ t.slots = s.slots ∧ t.tiles = s.tiles ∧ t.mem = s.mem) ∧
         (st s ≠ .running → st s ≠ .stopping ∨ (s.slot k).ending ≠ none → Answers (.preempt c) s (turned 2))) ∧
       (op = 4 →
         (st s = .preempted → ¬ busy → Answers (.resume c) s fun t =>
           st t = .restoring ∧ t.prState = 4 ∧ (opResume, c) ∈ t.host.waits ∧ t.mem.hbm = s.mem.hbm ∧ t.pwr.preload = s.leads) ∧
         (st s = .preempted → busy → Answers (.resume c) s (turned 3)) ∧
         (st s ≠ .preempted → Answers (.resume c) s (turned 2))) ∧
       (op = 8 →
         (s.running = some k → st s = .running → allStopped s k = false → Answers (.abort c) s fun t =>
           st t = .stopping ∧ (t.slot k).ending = some (5, 0, some 0) ∧ (opAbort, c) ∈ t.host.waits ∧ t.tiles = s.tiles ∧ t.mem = s.mem) ∧
         (s.running = some k → st s = .running → (s.slot k).teardown = false → allStopped s k = true →
           Answers (.abort c) s fun t => st t = .ended ∧ Ends c 0 s t) ∧
         (st s ≠ .running → Answers (.abort c) s (turned 2))))) ∧
  (∀ (c : HostCmd) (s : State),
     let k := c.slot.toNat
     let turned (status : Nat) (t : State) : Prop := t.slots = s.slots ∧ t.mem = s.mem ∧ t.tiles = s.tiles ∧ Ends c status s t
     let names (op : Nat) (uses : List (Nat × Nat)) (i : Instr) : Prop := c.op.toNat = op → Starts c uses s →
       (16 ≤ k → Answers i s (turned 1)) ∧ (k < 16 → (s.slot k).owner = none → Answers i s (turned 2)) ∧
       (∀ f, k < 16 → (s.slot k).owner = some f → f ≠ c.fn → Answers i s (turned 7))
     names 2 [(32, 14), (48, 64)] (.start c) ∧ names 3 [] (.preempt c) ∧ names 4 [] (.resume c) ∧ names 5 [] (.release c) ∧
       names 6 [] (.copyIn c) ∧ names 7 [(32, 1), (36, 4)] (.copyOut c) ∧ names 8 [] (.abort c))

/-- R357, R361, R362, R404, R406: COPY_IN puts sheets of host memory, each with a fresh check, at the translated addresses;
one that does not translate ends it with status 0x06, host memory that cannot be read with 0x05. COPY_OUT puts sheets of
HBM into host memory at once, or waits for its moment: a boundary, or the end of the program; a copy at a boundary that did
not come ends with status 0x09; CE_INFO0 tells how many bytes were read, and whether the program ran meanwhile. The aperture writes and reads bytes of the selected slot. No other byte of HBM changes. An
aperture that is not enabled, or an access to an address that does not translate, reads zeros, writes nothing, and
counts. -/
def Obligations.CopiesAndAperture : Prop :=
  (∀ (c : HostCmd) (k n : Nat) (pas : Nat → Nat) (s : State), OwnsSlot c k s → c.len.toNat = 256 * n →
     let op := c.op.toNat
     let ha := c.haddr.toNat
     let va := c.va.toNat
     let moment := argAt c 32 1
     let ended := (s.slot k).state = .ended
     let inSheets (a : Nat) : Prop := ∃ j < n, pas j ≤ a ∧ a < pas j + 256
     let writes : Prop := (∀ j < n, pas j % 256 = 0 ∧ dmaFails s (ha + 256 * j) 256 = false) ∧
       (∀ i < n, ∀ j < n, pas i = pas j → i = j) ∧
       ∀ m, (∀ a, ¬ inSheets a → mget m a = mget s.mem.hbm a) →
         ∀ j < n, hostPa { s with mem := { s.mem with hbm := m } } k (va + 256 * j) .wr = some (pas j)
     let reads : Prop := ∀ j < n, hostPa s k (va + 256 * j) .rd = some (pas j)
     let out (t : State) : Prop := t.mem.hbm = s.mem.hbm ∧
       (∀ j < n, ∀ b < 256, mget t.host.mem (ha + 256 * j + b) = (s.hbmSheet (pas j)).getD b 0) ∧
       ∀ a, a < ha ∨ ha + 256 * n ≤ a → mget t.host.mem a = mget s.host.mem a
     let waits : Prop := Answers (.copyOut c) s fun t => (opCopyOut, c) ∈ t.host.waits ∧ t.mem = s.mem ∧ t.host.mem = s.host.mem
     (copyAligned c = true → op = 6 → Starts c [] s →
       (writes → Answers (.copyIn c) s fun t =>
         (∀ j < n, (∀ b < 256, mget t.mem.hbm (pas j + b) = (s.hostRead (ha + 256 * j) 256).getD b 0) ∧
           t.hbmCheck (pas j) = crc32c (s.hostRead (ha + 256 * j) 256)) ∧
         (∀ a, ¬ inSheets a → mget t.mem.hbm a = mget s.mem.hbm a) ∧ t.mem.ts = s.mem.ts ∧ t.mem.rsv = s.mem.rsv ∧ Ends c 0 s t) ∧
       (0 < n → hostPa s k va .wr = none → Answers (.copyIn c) s fun t => SameData s t ∧ Ends c 6 s t) ∧
       (0 < n → hostPa s k va .wr = some (pas 0) → dmaFails s ha 256 = true →
         Answers (.copyIn c) s fun t => SameData s t ∧ Ends c 5 s t)) ∧
     (copyAligned c = true → op = 7 → Starts c [(32, 1), (36, 4)] s →
       (moment = 0 ∨ (moment = 2 ∧ ended) → reads → Answers (.copyOut c) s fun t => out t ∧ Ends c 0 s t) ∧
       (moment = 1 → c.len.toNat ≤ 0x4000000 → ended → reads → Answers (.copyOut c) s fun t => out t ∧ Ends c 9 s t) ∧
       (moment = 0 → 0 < n → hostPa s k va .rd = none → Answers (.copyOut c) s fun t =>
         SameData s t ∧ t.host.mem = s.host.mem ∧ Ends c 6 s t) ∧
       (moment = 0 → reads → (s.hq c.fn.val c.q.val).enabled = true → (∀ a ∈ s.host.accepted, a.c = c → a.gone = false) →
         Answers (.copyOut c) s fun t => ∃ x ∈ t.host.waiting, x.cid = c.cid ∧
           x.info0 = (256 * n ||| 2 ^ 32 * (if (s.slot k).state = .running then 1 else 0))) ∧
       (moment = 2 → ¬ ended → waits) ∧ (moment = 1 → c.len.toNat ≤ 0x4000000 → ¬ ended → waits)) ∧
     (s.host.waits.contains (opCopyOut, c) = true →
       (ended → reads → Answers (.copyOutDeferred c) s fun t => out t ∧ Ends c (if moment = 1 then 9 else 0) s t) ∧
       (¬ ended → moment = 1 → s.running = some k → boundaryReady k s = true → (s.slot k).span.toNat = argAt c 36 4 → reads →
         Answers (.copyOutDeferred c) s fun t => out t ∧ Ends c 0 s t) ∧
       (¬ ended → moment ≠ 1 → exec (.copyOutDeferred c) s = .next s))) ∧
  (∀ (c : HostCmd) (s : State), s.host.waits.contains (opCopyOut, c) = false → exec (.copyOutDeferred c) s = .next s) ∧
  (∀ (write : Bool) (off : BitVec 36) (len : Nat) (d : Bytes) (pas : Nat → Nat) (s : State),
     let k := s.rf Reg.HIF_B4_SEL 3 0
     let va := s.rf Reg.HIF_B4_BASE 11 0 * 2 ^ 36 + off.toNat
     let on := s.rf Reg.HIF_B4_SEL 4 4 = 1 ∧ (s.slot k).state ≠ .empty
     let n := if write then d.length else len
     let touched (i : Nat) : Prop := va / 256 ≤ i ∧ 256 * i < va + n
     let at_ (b : Nat) : Nat := pas ((va + b) / 256) + (va + b) % 256
     let maps (r : Right) : Prop := ∀ i, touched i → hostPa s k (256 * i) r = some (pas i) ∧ pas i % 256 = 0
     let missed (t : State) : Prop := SameData s t ∧ t.host.b4 = (if write then s.host.b4 else List.replicate len 0) ∧
       (t.reg Reg.HIF_B4_FAULT_COUNT).toNat = min 0xFFFFFFFF ((s.reg Reg.HIF_B4_FAULT_COUNT).toNat + 1)
     (s.served = true →
       (on → 0 < n → write = true → maps .wr → (∀ i j, touched i → touched j → pas i = pas j → i = j) →
         Answers (.bar4Access write off len d) s fun t => t.tiles = s.tiles ∧
           (∀ b, b < n → mget t.mem.hbm (at_ b) = d.getD b 0) ∧
           ∀ a, (∀ b, b < n → a ≠ at_ b) → mget t.mem.hbm a = mget s.mem.hbm a) ∧
       (on → 0 < n → write = false → maps .rd → Answers (.bar4Access write off len d) s fun t =>
         t.tiles = s.tiles ∧ t.mem.hbm = s.mem.hbm ∧ t.host.b4 = (List.range n).map fun b => mget s.mem.hbm (at_ b)) ∧
       (on → (∃ i, touched i ∧ hostPa s k (256 * i) (if write then .wr else .rd) = none) →
         Answers (.bar4Access write off len d) s missed) ∧
       (¬ on → Answers (.bar4Access write off len d) s missed)) ∧
     (s.served = false → exec (.bar4Access write off len d) s = .next s))

/-- R142, R363, R364, R373: a reset of a function disables its queues, returns its credits and handles its slots by state: a RUNNING one
begins to stop as by ABORT, a STOPPING or RESTORING one completes that step first, each to be torn down then, and any other is
released and its frames zero-filled; slots of other functions stay as they are. A reset of PF0 resets every function, VF Enable cleared
every VF; a PERST# of a device that is powered and past stage 0 does what a reset of PF0 does and brings the link up again out of
D3, and one of a device that is not does nothing. A removal without D3 takes the link down and every queue with it, and leaves the
program and its memories as they are; in D3, or with the link down, it does nothing. -/
def Obligations.FunctionResets : Prop :=
  ∀ (f : FnNo) (s : State),
    let gone (t : State) (g : Nat) : Prop := (∀ q, q < 16 → (t.hq g q).enabled = false) ∧ tget 0 t.host.used g = 0 ∧
      ∀ x ∈ t.host.waiting, x.fn.val ≠ g
    let stopped := ∀ j, (s.slot j).state ≠ .running
    let alone (k : Nat) : Prop := s.running = some k ∧ (s.slot k).state = .running ∧
      ∀ j, j ≠ k → (s.slot j).state ≠ .running ∧ (s.slot j).state ≠ .stopping
    let resets (i : Instr) (mine : FnNo → Bool) : Prop := Answers i s fun t =>
      (∀ g, mine g = true → gone t g.val) ∧
      (∀ k g, k < 16 → (s.slot k).owner = some g → mine g = true →
        ((s.slot k).state ∈ [SlotState.admitted, .preempted, .ended] → t.slot k = {} ∧
          ∀ r ∈ (s.slot k).frames, ∀ a, r.1 * 0x200000 ≤ a → a < (r.1 + r.2) * 0x200000 → mget t.mem.hbm a = 0) ∧
        ((s.slot k).state ∈ [SlotState.stopping, .restoring] → stopped → t.slot k = { s.slot k with teardown := true }) ∧
        (alone k → allStopped s k = false → t.slot k =
          { s.slot k with state := .stopping, teardown := true, ending := some (5, 0, some 0), reqCycle := s.cycle })) ∧
      (stopped ∨ (∃ j, alone j) → ∀ k, (∀ g, (s.slot k).owner = some g → mine g = false) → t.slot k = s.slot k)
    (f.val ≠ 0 → resets (.flr f) (· == f)) ∧
    resets (.flr 0) (fun _ => true) ∧
    (Answers (.flr 0) s fun t => t.rf Reg.SEC_SPDM 3 0 = 0) ∧
    resets .vfEnableClear (fun g => g.val != 0) ∧
    (s.pcieUp = true → Answers .perstReset s fun t => t.host.link = true ∧ t.host.d3 = false ∧ (∀ g, g < 9 → gone t g) ∧
      ∀ u, exec (.flr 0) s = .next u → t.slots = u.slots ∧ t.mem = u.mem ∧ t.tiles = u.tiles) ∧
    (s.pcieUp = false → exec .perstReset s = .next s) ∧
    (s.host.link = true → s.host.d3 = false → Answers .surpriseRemoval s fun t =>
      t.host.link = false ∧ (∀ g q, g < 9 → q < 16 → (t.hq g q).enabled = false) ∧
      (∀ a ∈ t.host.accepted, needsDma a.c = false) ∧ t.mem = s.mem ∧ t.tiles = s.tiles ∧ t.slots = s.slots) ∧
    (s.host.link = false ∨ s.host.d3 = true → exec .surpriseRemoval s = .next s)

/-! ### Registers, logbook, background tasks and management -/

/-- R14: an event counter advances by one per event and saturates at 0xFFFF_FFFF; a read returns it, a write of 0 clears it and a
write of any other value has no effect. What a write of 0 leaves in a cycle in which events advance the counter (R16), and that no register
is served before the end of stage 3 (R373), stands with the accesses to registers. -/
def Obligations.EventCounters : Prop :=
  ∀ (a : RegAddr) (d : RegDef) (v : BitVec 64) (s : State), Reg.info (regAt a) = some d → d.counter = true →
    let n := regAt a
    (((s.bump n 1).reg n).toNat = min 0xFFFFFFFF ((s.reg n).toNat + 1) ∧ (s.bump n 1).cntNow n = s.cntNow n + 1 ∧
      ∀ r, r ≠ n → (s.bump n 1).reg r = s.reg r ∧ (s.bump n 1).cntNow r = s.cntNow r) ∧
    s.view n = s.reg n ∧
    (s.served = true →
      ((v.setWidth 32 : Word) = 0 → s.cntNow n = 0 → Answers (.registerWrite a .word v) s fun t =>
        t.reg n = 0 ∧ (∀ r, r ≠ n → t.reg r = s.reg r) ∧ t = { s with regs := t.regs }) ∧
      ((v.setWidth 32 : Word) ≠ 0 → exec (.registerWrite a .word v) s = .next s))

/-- R8: a read of the low word of a pair, at any width, latches the high word; the first read of the high word after it,
at any width, returns the latched value and disarms the latch, and one with the latch not armed returns the current
value. No write and no access to another register disturbs a latch or arms one, but for a write that resets the device. A
64-bit read is the low word's, then the high word's; a 64-bit write is two 32-bit writes, the low word first. The ring
addresses of every queue are pairs (R349). R373, log entry 122: before the end of stage 3 no register is served. -/
def Obligations.PairLatches : Prop :=
  (∀ (f : FnNo) (q : Fin 16), Reg.isPair (Reg.queue f.val q.val 0) = true ∧ Reg.isPair (Reg.queue f.val q.val 8) = true) ∧
  ∀ (a b : RegAddr) (w : ReadWidth) (ww : WriteWidth) (v : BitVec 64) (s : State),
    let n := regAt a
    let part (x : Word) : Nat := match w with
      | .byte k => x.toNat / 2 ^ (8 * k.val) % 256
      | .half k => x.toNat / 2 ^ (16 * k.val) % 65536
      | _ => x.toNat
    let data (d : Nat) (t : State) : Prop := t.host.rdata = BitVec.ofNat 64 d ∧ t = { s with host := t.host, latch := t.latch }
    let others (t : State) : Prop := ∀ m, m ≠ n → tfind t.latch m = tfind s.latch m
    (s.served = true → Reg.isPair n = true → regAt b = n + 4 →
      (w ≠ .quad → Answers (.pairLowRead a w) s fun t =>
        data (part (s.view n)) t ∧ tfind t.latch n = some (s.view (n + 4)) ∧ others t) ∧
      (∀ x, w ≠ .quad → tfind s.latch n = some x → Answers (.pairHighRead b w) s fun t =>
        data (part x) t ∧ tfind t.latch n = none ∧ others t) ∧
      (w ≠ .quad → tfind s.latch n = none → Answers (.pairHighRead b w) s fun t =>
        data (part (s.view (n + 4))) t ∧ t.latch = s.latch) ∧
      Answers (.pairLowRead a .quad) s (fun t =>
        data ((s.view n).toNat + 2 ^ 32 * (s.view (n + 4)).toNat) t ∧ tfind t.latch n = none ∧ others t) ∧
      (b.bar = a.bar → ∀ t, exec (.registerWrite a .word v) s = .next t →
        exec (.registerWrite a .quad v) s = exec (.registerWrite b .word (v >>> 32)) t)) ∧
    (Reg.isPair n = false → exec (.pairLowRead a w) s = .next s) ∧
    (s.served = false → exec (.pairLowRead a w) s = .next s ∧ exec (.pairHighRead b w) s = .next s) ∧
    (regAt b ≠ Reg.BOOT_RESET → regAt b + 4 ≠ Reg.BOOT_RESET → Answers (.registerWrite b ww v) s fun t => t.latch = s.latch) ∧
    Answers (.xfInfoRead .word) s (fun t => t.latch = s.latch) ∧
    Answers (.slipInfoRead .word) s (fun t => t.latch = s.latch) ∧
    Answers (.firstFatalRead .word) s (fun t => t.latch = s.latch)


/-- R145, R232, R421: a read of a capture arms it again; a restart of a monitor takes what it shows now. R7, R10, R12,
R13, R15, R400: a write narrower than a register has no effect; a value goes to the fields it may set, where a reserved
encoding leaves its field; a one clears a status bit, unless an event of the same cycle has set it; a read-only register
keeps its value. No other register changes. R16: a counter cleared in a cycle keeps what the events of that cycle, between two steps
on an empty queue, have counted (log entry 130). R373, log entry 122: before the end of stage 3 no register is served. -/
def Obligations.RegisterAccesses : Prop :=
  (∀ (s : State), s.served = true →
     let data (t : State) (w : Word) : Prop := t.host.rdata = BitVec.ofNat 64 w.toNat
     (Answers (.xfInfoRead .word) s fun t => data t (s.view Reg.MEM_XF_INFO) ∧
       t = { s with host := t.host, xfHeld := false }) ∧
     (Answers (.slipInfoRead .word) s fun t => data t (s.view Reg.CLK_SLIP_INFO) ∧
       t = { s with host := t.host, slipHeld := false }) ∧
     (Answers (.firstFatalRead .word) s fun t => data t (s.view Reg.ERR_FIRST_FATAL) ∧
       t = { s with host := t.host, fatalHeld := false }) ∧
     (Answers .sluiceMonRestart s fun t => t.reg Reg.CLK_SLUICE_MON = 0x66 ∧
       (∀ r, r ≠ Reg.CLK_SLUICE_MON → t.reg r = s.reg r) ∧ t = { s with regs := t.regs }) ∧
     (Answers .fbMarginRestart s fun t =>
       let x := s.rf Reg.CLK_NODE_SEL 4 0
       (∀ k, k < monitors x → tget 255 t.clk.fmMin x ≤ s.marginAt x k) ∧ tget 255 t.clk.fmMin x ≤ 255 ∧
       (∀ y, y ≠ x → tget 255 t.clk.fmMin y = tget 255 s.clk.fmMin y) ∧ t = { s with clk := t.clk })) ∧
  (∀ (a : RegAddr) (v : BitVec 64) (s : State), s.served = true → a.bar = 0 →
     let n := a.off.toNat
     let w : Word := v.setWidth 32
     let sets (t : State) (x : Word) : Prop := t.reg n = x ∧ (∀ r, r ≠ n → t.reg r = s.reg r) ∧ t = { s with regs := t.regs }
     (exec (.registerWrite a .narrow v) s = .next s) ∧
     (n = Reg.PWR_CAP → Answers (.registerWrite a .word v) s fun t => ∃ x, sets t x ∧
       wfld x 31 16 = (if 10 ≤ wfld w 31 16 ∧ wfld w 31 16 ≤ 10000 then wfld w 31 16 else s.rf n 31 16) ∧
       wfld x 15 0 = (if 600 ≤ wfld w 15 0 ∧ wfld w 15 0 ≤ 2400 then wfld w 15 0 else s.rf n 15 0)) ∧
     (n = Reg.ERR_STATUS → Answers (.registerWrite a .word v) s fun t =>
       sets t (s.reg n &&& ~~~(w &&& 0x7F &&& ~~~(s.setNow n)))) ∧
     (n = Reg.BOOT_STATUS → Answers (.registerWrite a .word v) s fun t => sets t (s.reg n))) ∧
  (∀ (a : RegAddr) (d : RegDef) (v : BitVec 64) (s : State), Reg.info (regAt a) = some d → d.counter = true → s.served = true →
     (v.setWidth 32 : Word) = 0 → Answers (.registerWrite a .word v) s fun t =>
       (t.reg (regAt a)).toNat = min 0xFFFFFFFF (s.cntNow (regAt a)) ∧ (∀ r, r ≠ regAt a → t.reg r = s.reg r) ∧ t = { s with regs := t.regs }) ∧
  (∀ (a : RegAddr) (ww : WriteWidth) (v : BitVec 64) (w : ReadWidth) (s : State), s.served = false →
     exec (.registerWrite a ww v) s = .next s ∧ exec (.xfInfoRead w) s = .next s ∧ exec (.slipInfoRead w) s = .next s ∧
       exec (.firstFatalRead w) s = .next s ∧ exec .sluiceMonRestart s = .next s ∧ exec .fbMarginRestart s = .next s)

/-- R447, R452: a token of a code with a rate limit comes back at the end of its interval, up to its burst. A clear that
begins finds its records counted, and each cycle empties the next position (log entry 184); when it is over the logbook holds the record of the clear alone, with the next
number, and then what waited. R408, R409, R412, R415, R418: a pass of a task that may run starts its age anew, one of a
task that is switched off, whose parts are powered down, or that may not run now, does nothing, nor does any in RECOVERY (R374); a scrub of HBM leaves no correctable error, and only frames
that no slot holds are zero-filled. A task that has missed its period is reported once. An error in firmware SRAM is fatal
and stops the program on the grid. -/
def Obligations.LogAndBackground : Prop :=
  (∀ (c : BitVec 16) (s : State),
     let x := s.log.lim c
     (Ev.known c = true → x.burst ≠ 0 → Answers (.logTokenTick c) s fun t =>
       t.log.lim c = { x with tokens := min x.burst (x.tokens + 1) } ∧
       t.log.recs = s.log.recs ∧ t = { s with log := t.log }) ∧
     (Ev.known c = false ∨ x.burst = 0 → exec (.logTokenTick c) s = .next s) ∧
     (s.served = true → s.log.busy = false → Answers .logClear s fun t => t.log.busy = true ∧ t.log.recs = s.log.recs ∧ t.log.clearAt = 0 ∧
       t.log.removed.1 = s.log.recs.length ∧ t = { s with log := t.log }) ∧
     (s.log.busy = true ∨ s.served = false → exec .logClear s = .next s) ∧
     (s.log.busy = true → (tickClear s).log.clearAt = s.log.clearAt + 1 ∧
       ∀ p, tfind (tickClear s).log.recs p = if p = s.log.clearAt then none else tfind s.log.recs p) ∧
     (s.log.busy = true → s.log.staging = [] → Answers .logCleared s fun t =>
       t.log.busy = false ∧ t.log.seqNext = s.log.seqNext + 1 ∧
       ∃ r, t.log.recs = [(0, r)] ∧ r.seq = s.log.seqNext ∧ r.code = Ev.LOG_CLEARED ∧
         r.data = padTo (leBytes s.log.removed.1 2 ++ leBytes 0 2 ++ leBytes s.log.removed.2.1 4 ++ leBytes s.log.removed.2.2 8) 16) ∧
     (s.log.busy = false → exec .logCleared s = .next s)) ∧
  (∀ (task : Fin 6) (port : PortNo) (s : State),
     let windows := task.val ∈ [0, 3, 5]
     let may := s.stage ≠ 8 ∧ s.taskOff task.val = false ∧ powered s task.val = true ∧ (windows → s.running = none ∨ 0 < s.ras.win) ∧
       (task.val = 4 → s.linkUp port.val = true ∧ (s.port port.val).idle = true)
     (¬ may → exec (.backgroundTaskPass task port) s = .next s) ∧
     (may → Answers (.backgroundTaskPass task port) s fun t =>
       t.taskAge task.val = 0 ∧ task.val ∉ t.ras.deferred ∧ t.mem.ts = s.mem.ts ∧
       (∀ a, mget t.mem.hbm a = mget s.mem.hbm a ∨ (mget t.mem.hbm a = 0 ∧
         ∀ e ∈ s.slots, ∀ r ∈ e.2.frames, a / 0x200000 < r.1 ∨ r.1 + r.2 ≤ a / 0x200000)) ∧
       (task = 2 → ∀ w, w < 2 ^ 48 → ¬ (1 ≤ tget 0 t.mem.ecc (eccKey placeHbm w) ∧ tget 0 t.mem.ecc (eccKey placeHbm w) ≤ 7)) ∧
       (task = 4 → (t.port port.val).st = .recover)) ∧
     (s.stage = 8 ∨ task.val ∈ s.ras.deferred ∨ taskDue s task.val = false → exec (.scrubDeferred task) s = .next s) ∧
     (s.stage ≠ 8 → task.val ∉ s.ras.deferred → taskDue s task.val = true → Answers (.scrubDeferred task) s fun t => task.val ∈ t.ras.deferred ∧
       (t.reg Reg.RAS_DEFER_COUNT).toNat = min 0xFFFFFFFF ((s.reg Reg.RAS_DEFER_COUNT).toNat + 1) ∧ t.mem = s.mem) ∧
     (Answers .firmwareSramError s fun t => (t.reg Reg.ERR_STATUS).getLsbD 6 = true ∧
       ∀ k, s.running = some k → (s.slot k).state = .running → (s.slot k).ending = none → (s.slot k).teardown = false →
         (t.slot k).state = .stopping ∨ (t.slot k).state = .ended))

/-- R464–R469: from the end of stage 3 on the endpoint answers: a sensor with its reading, an effecter with success or, for
a value it does not take, with an error; a cap and the level load go to their registers, a reset begins start-up anew, a
power-off takes the supply away; in FAILED the bus works, but of the PLDM messages it answers those for its sensors alone, and otherwise
not at all. The PLDM base messages name the types it serves and keep a terminus ID (log entry 59); a packet with a bad PEC is dropped. R430, R434–R436: on a
transport that is up, GET_VERSION starts the connection, GET_CAPABILITIES and NEGOTIATE_ALGORITHMS move it on, each with
its answer, and a request that comes too early is answered as unexpected. A signed answer signs the exchanges of the connection and needs the identity key: before
it is ready the requester is told to come back. A transport that is not up answers nothing. -/
def Obligations.Management : Prop :=
  (∀ (id st e : Byte) (w : BitVec 16) (o : BootOutcome) (m : MctpMsg) (s : State),
     let up := 4 ≤ s.stage ∧ s.stage ≤ 7
     let answers (r : MgmtResp) (t : State) : Prop := t = { s with mgmt := { s.mgmt with resp := some r } }
     let sets (n : RegNo) (hi lo v : Nat) (t : State) : Prop := t.rf n hi lo = v ∧ t.mgmt.resp = some (.pldm true) ∧
       (∀ r, r ≠ n → t.reg r = s.reg r) ∧ t = { s with regs := t.regs, mgmt := t.mgmt }
     (up ∨ s.stage = 9 → Answers (.pldmSensorRead id) s (answers (.sensor id.toNat (sensorValue s id.toNat)))) ∧
     (up →
       (600 ≤ w.toNat → w.toNat ≤ 2400 → Answers (.pldmCapEffecter w) s (sets Reg.PWR_CAP 15 0 w.toNat)) ∧
       (w.toNat < 600 ∨ 2400 < w.toNat → Answers (.pldmCapEffecter w) s (answers (.pldm false))) ∧
       Answers (.pldmLevelLoadEffecter 1) s (sets Reg.LL_CTRL 31 31 0) ∧
       Answers (.pldmLevelLoadEffecter 2) s (sets Reg.LL_CTRL 31 31 1) ∧
       (st ≠ 1 → st ≠ 2 → Answers (.pldmLevelLoadEffecter st) s (answers (.pldm false))) ∧
       (s.md.supply = .on → s.boot.busy = none →
         (Answers (.pldmResetEffecter 1 o) s fun t => t.rf Reg.BOOT_STATUS 18 16 = 2 ∧ t.stage = 0 ∧ t.boot.plan = some o ∧
           t.tiles = [] ∧ t.mem.hbm = [] ∧ t.boot.flash = s.boot.flash ∧ t.mgmt.resp = some (.pldm true)) ∧
         (Answers (.pldmResetEffecter 2 o) s fun t => t.rf Reg.BOOT_STATUS 18 16 = 4 ∧ t.stage = 1 ∧ t.boot.plan = some o ∧
           t.tiles = [] ∧ t.mem.hbm = [] ∧ t.log.recs = s.log.recs ∧ t.boot.flash = s.boot.flash ∧
           t.mgmt.resp = some (.pldm true))) ∧
       Answers (.pldmResetEffecter 3 o) s (fun t => t.md.supply = .off ∧ t.md.latch = .untilFall ∧ t.mem = {}) ∧
       (st ≠ 1 → st ≠ 2 → st ≠ 3 → Answers (.pldmResetEffecter st o) s (answers (.pldm false))) ∧
       Answers .pldmFruRead s (answers (.fru ⟨"Ozori Microsystems", "OZE-T1-960W", Config.serial, "B1", s.sec.fwrev, Config.madeOn⟩)) ∧
       Answers (.setEventReceiver e) s (fun t => t.mgmt.receiver = some e ∧ t.mgmt.resp = some (.pldm true) ∧
         t = { s with mgmt := t.mgmt }) ∧
       Answers (.mctpControl .pldmTypes) s (answers (.pldmTypes [0, 2, 4])) ∧
       Answers (.mctpControl (.pldmSetTid e)) s (fun t => t.mgmt.tid = e ∧ t.mgmt.resp = some (.pldm true) ∧
         t = { s with mgmt := t.mgmt }) ∧
       Answers (.mctpControl (.pldmBase 2)) s (answers (.pldmTid s.mgmt.tid))) ∧
     (up ∨ s.stage = 9 → Answers (.mctpControl (.setEid e)) s (fun t => t.mgmt.eid = e ∧ t.mgmt.resp = some (.mctp 1 e) ∧
         t = { s with mgmt := t.mgmt }) ∧
       Answers (.mctpControl (.control st)) s (answers (.mctp st s.mgmt.eid)) ∧
       exec (.mctpControl (.otherType st)) s = .next s ∧ exec (.mctpControl .badPec) s = .next s) ∧
     (¬ up → exec (.pldmCapEffecter w) s = .next s ∧ exec (.pldmLevelLoadEffecter st) s = .next s ∧
       exec (.pldmResetEffecter st o) s = .next s ∧ exec .pldmFruRead s = .next s ∧ exec (.setEventReceiver e) s = .next s ∧
       exec (.mctpControl .pldmTypes) s = .next s ∧ exec (.mctpControl (.pldmSetTid e)) s = .next s ∧
       exec (.mctpControl (.pldmBase st)) s = .next s ∧
       (s.stage ≠ 9 → exec (.pldmSensorRead id) s = .next s ∧ exec (.mctpControl m) s = .next s))) ∧
  (∀ (tr : Transport) (offers : List Word) (slot i code : Byte) (off len : BitVec 16) (nonce : Bytes) (s : State),
     let up := spdmUp s tr = true
     let at_ := spdmState s tr
     let ready := s.rf Reg.SEC_STATUS 30 30 = 1 ∧ s.rf Reg.SEC_STATUS 29 29 = 0
     let answers (r : MgmtResp) (t : State) : Prop := t = { s with mgmt := { s.mgmt with resp := some r } }
     let moves (n : Nat) (r : MgmtResp) (t : State) : Prop := spdmState t tr = n ∧ t.mgmt.resp = some r ∧
       t = { s with regs := t.regs, mgmt := t.mgmt }
     let told (x : SpdmExch) (r : MgmtResp) (t : State) : Prop :=
       t.mgmt.resp = some r ∧ spdmTalk t tr = spdmTalk s tr ++ [x] ∧ t = { s with mgmt := t.mgmt }
     let signs (x : SpdmExch) (sig : Bytes) : Prop :=
       ∃ n, sig = Config.falconSign (Config.falconKey (identitySeed s)).2 (Config.spdmMessage (spdmTalk s tr ++ [x])) n
     let early (c : Instr) : Prop := Answers c s (answers (.error .unexpectedRequest))
     (up → Answers (.getVersion tr) s (moves 1 .version)) ∧
     (up → 1 ≤ at_ → Answers (.getCapabilities tr) s (moves 2 (.capabilities [.cert, .chal, .measSigned] 14 4096 4096))) ∧
     (up → at_ < 1 → early (.getCapabilities tr)) ∧
     (up → 2 ≤ at_ → spdmAsym ∈ offers → spdmHash ∈ offers →
       Answers (.negotiateAlgorithms tr offers) s (moves 3 (.algorithms spdmAsym spdmHash .dmtf .rawBitStream))) ∧
     (up → 2 ≤ at_ → ¬ (spdmAsym ∈ offers ∧ spdmHash ∈ offers) →
       Answers (.negotiateAlgorithms tr offers) s (answers (.error .negotiationFail))) ∧
     (up → at_ < 2 → early (.negotiateAlgorithms tr offers)) ∧
     (up → at_ < 3 → early (.getDigests tr) ∧ early (.getCertificate tr slot off len) ∧ early (.challenge tr nonce) ∧
       early (.getMeasurements tr i true nonce)) ∧
     (up → 3 ≤ at_ → (∀ c, certChain = some c →
       Answers (.getDigests tr) s (told ⟨0x81, [], Config.shake256 c 64⟩ (.digests (Config.shake256 c 64))) ∧
       (slot = 0 → off.toNat < c.length → Answers (.getCertificate tr slot off len) s fun t => ∃ part,
         told ⟨0x82, leBytes off.toNat 2 ++ leBytes len.toNat 2, part⟩ (.certificate part (c.length - off.toNat - part.length)) t ∧
         part = (c.drop off.toNat).take (min len.toNat 4088)) ∧
       (slot ≠ 0 → Answers (.getCertificate tr slot off len) s (answers (.error .invalidRequest))))) ∧
     (up → 3 ≤ at_ → ready → (Answers (.challenge tr nonce) s fun t => spdmState t tr = 4 ∧ t.mem = s.mem ∧ t.tiles = s.tiles ∧
         ∃ n sig, t.mgmt.resp = some (.challengeAuth n sig) ∧ n.length = 32 ∧ signs ⟨0x83, nonce, n⟩ sig) ∧
       (1 ≤ i.toNat → i.toNat ≤ 20 → Answers (.getMeasurements tr i true nonce) s fun t => t.regs = s.regs ∧ t.mem = s.mem ∧
         ∃ n sig, t.mgmt.resp = some (.measurements [(i.toNat, measurement s i.toNat)] n (some sig)) ∧ n.length = 32 ∧
           signs ⟨0xE0, leBytes i.toNat 1 ++ leBytes 1 1 ++ nonce, measurement s i.toNat ++ n⟩ sig)) ∧
     (up → 3 ≤ at_ → s.rf Reg.SEC_STATUS 29 29 = 0 → s.rf Reg.SEC_STATUS 30 30 = 0 →
       Answers (.challenge tr nonce) s (answers (.error (.responseNotReady 17))) ∧
       (i.toNat ≤ 20 → Answers (.getMeasurements tr i true nonce) s (answers (.error (.responseNotReady 17))))) ∧
     (up → 3 ≤ at_ → 1 ≤ i.toNat → i.toNat ≤ 20 → Answers (.getMeasurements tr i false nonce) s fun t =>
       t.regs = s.regs ∧ t.mem = s.mem ∧
       ∃ n, t.mgmt.resp = some (.measurements [(i.toNat, measurement s i.toNat)] n none) ∧ n.length = 32) ∧
     (up → Answers (.spdmUnsupported tr code) s (answers (.error .unsupportedRequest))) ∧
     (¬ up → exec (.getVersion tr) s = .next s ∧ exec (.getCapabilities tr) s = .next s ∧
       exec (.negotiateAlgorithms tr offers) s = .next s ∧ exec (.getDigests tr) s = .next s ∧
       exec (.getCertificate tr slot off len) s = .next s ∧ exec (.challenge tr nonce) s = .next s ∧
       exec (.getMeasurements tr i true nonce) s = .next s ∧ exec (.spdmUnsupported tr code) s = .next s))

/-! ### Reset, the words of operations, and what every step keeps -/

/-- What reset leaves: span cycle 0, no command waiting, empty memories, in canonical form, every slot EMPTY, no port
trained, no stage of start-up complete, p0 of a tile 1, and the registers at the values their tables give. R26: a logical
column of a row stands at its own physical column, or at the next one from the retired column on, which it never is. R470:
once its configuration space is served, a function answers with the IDs of the module. -/
def Obligations.ResetState : Prop :=
  (let s := State.reset
   s.cycle = 0 ∧ s.pending = [] ∧ s.Canonical ∧ (∀ a, mget s.mem.ts a = 0 ∧ mget s.mem.hbm a = 0 ∧ mget s.mem.rsv a = 0) ∧
     (∀ k, (s.slot k).state = .empty ∧ (s.slot k).owner = none) ∧ (∀ p, (s.port p).st = .disabled) ∧
     s.stage = 0 ∧ s.served = false ∧ s.boot.plan = none ∧
     (∀ t, (s.tile t).pr 0 = true ∧ (∀ k, (s.tile t).gr k = 0) ∧ ∀ k, k < 4 → ((s.tile t).loop k).active = false) ∧
     s.reg Reg.PWR_CAP = 0x640898 ∧ s.reg Reg.LL_BAND = 0x7D005DC ∧ s.reg Reg.THM_LIMITS = 0x5D6469 ∧
     s.reg Reg.LNK_TIDE_CFG = 0xFA0064 ∧ s.reg Reg.CLK_SLUICE_MON = 0x66 ∧ s.reg Reg.ERR_STATUS = 0) ∧
  (∀ (r c : Fin 48),
     (Config.physColumn r c).val = (if c.val < (Config.retiredColumn r).val then c.val else c.val + 1) ∧
     Config.physColumn r c ≠ Config.retiredColumn r) ∧
  ∀ (f : FnNo) (s : State), s.served = true →
    pciId s f = some ⟨0x1F3D, if f.val = 0 then 0x0E71 else 0x0E72, 0x120000, s.boot.subsys⟩

/-- R235, R243, R241, R270, R277, R280, R285, R286, R290: the word of every operation, at every value of its operands,
reads as that operation in its slot, and an operation is read from its word alone. -/
def Obligations.SlotWordsRoundTrip : Prop :=
  (∀ (i : Instr) (t : TileId) (k : Nat), slotPlace i = some (t, k) → i.wf = true → decodeSlot t k (encodeSlot i) = .op i) ∧
  ∀ (t : TileId) (k : Nat) (w : Word) (i : Instr), k < 8 → decodeSlot t k w = .op i →
    slotPlace i = some (t, k) ∧ encodeSlot i = w ∧ i.wf = true

/-- Whatever the state, every command that the spec does not call a reserved encoding answers a next state (R237, R240,
R249), but for an access of a test port that no debug lock guards to the scan chains or past a memory (R439). The command that a step takes off the queue
leaves the queue's rest as it is. Every step keeps the memories in canonical form: addresses strictly rising, no byte
listed that equals what an unlisted address reads as. -/
def Obligations.StepsKeepInvariant : Prop :=
  (∀ (c : Instr) (s : State), c.wf = true → (∀ p, c = .testPortAccess p → Config.debugLock = true ∨ testInside p.access = true) →
     ∃ t, exec c s = .next t) ∧
  (∀ (c : Instr) (s t : State), exec c s = .next t → t.pending = s.pending) ∧
  (Inductive State.Canonical)

end
end

