-- ==== Sys2Proof/Laws/Grid.lean ====
section
/-!
SUPPORT. Loading the grid: a multicast for one tile reaches that tile alone (R187, R375).
-/
namespace Sys2Proof.Machine

/-- A multicast for one tile that has come from the west, or stands at the crossing. -/
theorem mcReach_east (row c : Nat) (hc : c < 48) :
    ∀ (d : Nat) (f : VFlit), f.args = [row, row, c, c] ∨ f.args = [row, row, c, c, 0, 1] → d ≤ c → ∀ n, d < n →
      mcReach n (row * 48 + (c - d)) f = [row * 48 + c] := by
  intro d
  induction d with
  | zero =>
    intro f hf _ n hn
    obtain ⟨n, rfl⟩ : ∃ m, n = m + 1 := ⟨n - 1, by omega⟩
    have hr : (row * 48 + c) / 48 = row := by omega
    have hm : (row * 48 + c) % 48 = c := by omega
    rcases hf with hf | hf <;> simp [mcReach, mcOuts, hr, hm, hf]
  | succ d ih =>
    intro f hf hd n hn
    obtain ⟨n, rfl⟩ : ∃ m, n = m + 1 := ⟨n - 1, by omega⟩
    have hr : (row * 48 + (c - (d + 1))) / 48 = row := by omega
    have hm : (row * 48 + (c - (d + 1))) % 48 = c - (d + 1) := by omega
    have hlt : c - (d + 1) < c := by omega
    have hn1 : ¬ c ≤ c - (d + 1) := by omega
    have hn2 : ¬ c < c - (d + 1) := by omega
    have hnb : neighbour (row * 48 + (c - (d + 1))) 2 = some (row * 48 + (c - d)) := by
      have h47 : ¬ (row * 48 + (c - (d + 1))) % 48 = 47 := by omega
      simp only [neighbour, if_neg h47, Option.some.injEq]; omega
    have ho : mcOuts (row * 48 + (c - (d + 1))) f = [2] := by
      rcases hf with hf | hf <;> simp only [mcOuts, hr, hm, hf] <;> simp [hlt, hn1, hn2]
    have hf' : (mcCopy f 2).args = [row, row, c, c, 0, 1] := by
      rcases hf with hf | hf <;> simp [mcCopy, hf, List.range, List.range.loop]
    rw [mcReach, ho]
    simp [hnb, ih (mcCopy f 2) (.inr hf') (by omega) n (by omega)]

/-- What device firmware sends to one tile takes effect there, and nowhere else. -/
theorem mcDeliver_one (t : Nat) (act : Nat → State → State) (s u : State) :
    mcDeliver (multicast (t / 48) (t / 48) (t % 48) (t % 48) u) act s = act t s := by
  have h := mcReach_east (t / 48) (t % 48) (by omega) (t % 48) (multicast (t / 48) (t / 48) (t % 48) (t % 48) u) (.inl rfl) (by omega)
    96 (by omega)
  have e : t / 48 * 48 + (t % 48 - t % 48) = t / 48 * 48 := by omega
  have e' : t / 48 * 48 + t % 48 = t := by omega
  have ed : (multicast (t / 48) (t / 48) (t % 48) (t % 48) u).dest / 48 * 48 = t / 48 * 48 := by
    simp only [multicast]; omega
  rw [mcDeliver, ed]
  rw [e, e'] at h
  simp [h]

end Sys2Proof.Machine
end

