-- ==== Sys2Proof/Laws/Log.lean ====
section
/-!
SUPPORT. What a record can change: the logbook, device registers, interrupts, the slot a stop is pending for, and the
capture of the first fatal code; nothing else of the state.
-/
namespace Sys2Proof.Machine

theorem onlyLogs_refl (s : State) : OnlyLogs s s := rfl

theorem onlyLogs_trans {s t r : State} (h : OnlyLogs s t) (h' : OnlyLogs t r) : OnlyLogs s r := by
  unfold OnlyLogs at *
  refine h'.trans ?_
  rw [h]

theorem setReg_onlyLogs (s : State) (n : RegNo) (v : Word) : OnlyLogs s (s.setReg n v) := rfl
theorem setBits_onlyLogs (s : State) (n : RegNo) (m : Nat) : OnlyLogs s (s.setBits n m) := rfl
theorem bump_onlyLogs (s : State) (n : RegNo) (k : Nat) : OnlyLogs s (s.bump n k) := rfl
theorem fire_onlyLogs (s : State) (f v : Nat) : OnlyLogs s (s.fire f v) := rfl
theorem setSlot_onlyLogs (s : State) (k : Nat) (p : Slot) : OnlyLogs s (s.setSlot k p) := rfl
theorem setLog_onlyLogs (s : State) (l : LogSt) : OnlyLogs s { s with log := l } := rfl

theorem setHeld_onlyLogs (s : State) (b : Bool) : OnlyLogs s { s with fatalHeld := b } := rfl

theorem logStore_onlyLogs (s : State) (p : Nat) (c : BitVec 16) (src : Nat) (data : Bytes) :
    OnlyLogs s (logStore s p c src data) := by
  unfold logStore
  dsimp only
  split
  · exact onlyLogs_trans (setLog_onlyLogs ..) (fire_onlyLogs ..)
  · exact setLog_onlyLogs ..

theorem logWrite_onlyLogs (s : State) (c : BitVec 16) (src : Nat) (data : Bytes) :
    OnlyLogs s (logWrite s c src data).1 := by
  unfold logWrite
  dsimp only
  split
  · exact logStore_onlyLogs ..
  · split
    · exact onlyLogs_trans (logStore_onlyLogs ..) (onlyLogs_trans (setBits_onlyLogs ..) (bump_onlyLogs ..))
    · exact onlyLogs_trans (setBits_onlyLogs ..) (bump_onlyLogs ..)

theorem logEvent_onlyLogs (s : State) (c : BitVec 16) (src : Nat) (data : Bytes) :
    OnlyLogs s (logEvent s c src data).1 := by
  unfold logEvent
  dsimp only
  split
  · exact logWrite_onlyLogs ..
  · rfl

theorem logTry_onlyLogs (s : State) (c : BitVec 16) (src : Nat) (data : Bytes) (k : Option Nat) :
    OnlyLogs s (logTry s c src data k).1 := by
  unfold logTry
  split
  · split
    · exact setLog_onlyLogs ..
    · exact onlyLogs_trans (setBits_onlyLogs ..) (bump_onlyLogs ..)
  · exact logEvent_onlyLogs ..

theorem log1_onlyLogs (s : State) (c : BitVec 16) (src : Nat) (data : Bytes) : OnlyLogs s (s.log1 c src data) :=
  logTry_onlyLogs ..

theorem noteFatal_onlyLogs (s : State) (c : BitVec 16) : OnlyLogs s (noteFatal s c) := by
  unfold noteFatal
  dsimp only
  split
  · exact setBits_onlyLogs ..
  · exact onlyLogs_trans (setBits_onlyLogs ..) (onlyLogs_trans (setReg_onlyLogs ..) (setHeld_onlyLogs ..))

theorem logStop_onlyLogs (s : State) (c : BitVec 16) (src : Nat) (data : Bytes) (owner : Option Nat) :
    OnlyLogs s (s.logStop c src data owner) := by
  unfold State.logStop
  dsimp only
  refine onlyLogs_trans (t := if Ev.severity c = 3 then noteFatal s c else s) ?_ ?_
  · split
    · exact noteFatal_onlyLogs ..
    · rfl
  · generalize (if Ev.severity c = 3 then noteFatal s c else s) = s'
    split
    · exact log1_onlyLogs ..
    · split
      · split
        · exact log1_onlyLogs ..
        · exact onlyLogs_trans (logTry_onlyLogs ..) (setSlot_onlyLogs ..)
      · exact log1_onlyLogs ..
      · split
        · split
          · exact onlyLogs_trans (log1_onlyLogs ..) (setBits_onlyLogs ..)
          · exact onlyLogs_trans (logTry_onlyLogs ..) (onlyLogs_trans (setSlot_onlyLogs ..) (setBits_onlyLogs ..))
        · exact log1_onlyLogs ..

theorem hazard_onlyLogs (s : State) (tile : Nat) (data : Bytes) : OnlyLogs s (s.hazard tile data) := by
  unfold State.hazard
  split
  · rfl
  · split
    · split
      · exact logStop_onlyLogs ..
      · exact log1_onlyLogs ..
    · rfl

/-- No HAZARD record is written but in a debug build (R267). -/
theorem hazard_release (s : State) (tile : Nat) (data : Bytes) (h : s.debug = false) : s.hazard tile data = s := by
  unfold State.debug at h
  unfold State.hazard
  split
  · rfl
  · simp_all

theorem coreHaz_onlyLogs (s : State) (tile cause slot : Nat) : OnlyLogs s (s.coreHaz tile cause slot) :=
  hazard_onlyLogs ..
theorem coreHaz_release (s : State) (tile cause slot : Nat) (h : s.debug = false) : s.coreHaz tile cause slot = s :=
  hazard_release _ _ _ h

/-- What a register write of a slot does: one delayed effect, and a record of a collision in a debug build. -/
theorem regW_schedules (s : State) (tile slot due : Nat) (e : Effect) : Schedules s (s.regW tile slot due e) [(due, e)] := by
  unfold State.regW Schedules
  dsimp only
  split
  · have h := coreHaz_onlyLogs s tile 1 slot
    refine ⟨?_, ?_, ?_⟩
    · rw [h]; rfl
    · unfold OnlyLogs at h ⊢
      simp only [State.sch]
      rw [h]
    · intro hd
      rw [coreHaz_release _ _ _ _ hd]; rfl
  · exact ⟨rfl, rfl, fun _ => rfl⟩

end Sys2Proof.Machine
end

