-- ==== Sys2Proof/Laws/Table.lean ====
section
/-!
SUPPORT. The laws of tables and memories: reading after writing, what a write leaves alone, and that every operation on
a memory keeps its canonical form.
-/
namespace Sys2Proof.Machine

variable {α : Type}

/-! ### Reading after writing -/

theorem tget_eq_tfind (d : α) (t : Tbl α) (k : Nat) : tget d t k = (tfind t k).getD d := by
  induction t with
  | nil => rfl
  | cons e r ih => simp only [tget, tfind]; split <;> simp_all

theorem tfind_tput (t : Tbl α) (k : Nat) (v : α) (j : Nat) :
    tfind (tput t k v) j = if k = j then some v else tfind t j := by
  induction t with
  | nil => simp [tput, tfind]
  | cons e r ih =>
    obtain ⟨k', v'⟩ := e
    simp only [tput]
    split
    · simp only [tfind]
    · split
      · simp only [tfind]
        split
        · rfl
        · split
          · omega
          · rfl
      · simp only [tfind, ih]
        split
        · split
          · omega
          · rfl
        · rfl

theorem tfind_tdel (t : Tbl α) (k j : Nat) : tfind (tdel t k) j = if k = j then none else tfind t j := by
  induction t with
  | nil => simp [tdel, tfind]
  | cons e r ih =>
    obtain ⟨k', v'⟩ := e
    simp only [tdel]
    split
    · rw [ih]
      simp only [tfind]
      split
      · rfl
      · split
        · omega
        · rfl
    · simp only [tfind, ih]
      split
      · split
        · omega
        · rfl
      · rfl

theorem tget_tput (d : α) (t : Tbl α) (k : Nat) (v : α) (j : Nat) :
    tget d (tput t k v) j = if k = j then v else tget d t j := by
  simp only [tget_eq_tfind, tfind_tput]
  split <;> rfl

theorem tget_tdel (d : α) (t : Tbl α) (k j : Nat) : tget d (tdel t k) j = if k = j then d else tget d t j := by
  simp only [tget_eq_tfind, tfind_tdel]
  split <;> rfl

theorem tget_tset [DecidableEq α] (d : α) (t : Tbl α) (k : Nat) (v : α) (j : Nat) :
    tget d (tset d t k v) j = if k = j then v else tget d t j := by
  unfold tset
  split
  · subst v; exact tget_tdel ..
  · exact tget_tput ..

@[simp] theorem tget_tset_same [DecidableEq α] (d : α) (t : Tbl α) (k : Nat) (v : α) : tget d (tset d t k v) k = v := by
  simp [tget_tset]

theorem tget_tset_other [DecidableEq α] (d : α) (t : Tbl α) {k j : Nat} (v : α) (h : k ≠ j) :
    tget d (tset d t k v) j = tget d t j := by
  simp [tget_tset, h]

theorem tget_tmod [DecidableEq α] (d : α) (t : Tbl α) (k : Nat) (f : α → α) (j : Nat) :
    tget d (tmod d t k f) j = if k = j then f (tget d t k) else tget d t j :=
  tget_tset ..

/-! ### The canonical form -/

/-- Keys strictly rising, from a bound on. -/
theorem tsorted_cons (k : Nat) (v : α) (r : Tbl α) :
    tsorted ((k, v) :: r) = (tsorted r && r.all fun e => decide (k < e.1)) := by
  induction r generalizing k v with
  | nil => rfl
  | cons e r ih =>
    obtain ⟨k', v'⟩ := e
    simp only [tsorted, ih, List.all_cons]
    by_cases h : k < k'
    · have : (r.all fun e => decide (k' < e.1)) = true → (r.all fun e => decide (k < e.1)) = true := by
        simp only [List.all_eq_true, decide_eq_true_eq]
        intro hr e he
        have := hr e he
        omega
      cases hs : tsorted r <;> cases hr : (r.all fun e => decide (k' < e.1)) <;> simp_all <;> exact this
    · simp [h]

theorem mem_tput (t : Tbl α) (k : Nat) (v : α) (e : Nat × α) (h : e ∈ tput t k v) : e = (k, v) ∨ e ∈ t := by
  induction t with
  | nil => simp_all [tput]
  | cons x r ih =>
    obtain ⟨k', v'⟩ := x
    simp only [tput] at h
    split at h
    · simp_all
    · split at h
      · simp only [List.mem_cons] at h ⊢
        rcases h with h | h
        · exact .inl h
        · exact .inr (.inr h)
      · simp only [List.mem_cons] at h ⊢
        rcases h with h | h
        · exact .inr (.inl h)
        · rcases ih h with h | h
          · exact .inl h
          · exact .inr (.inr h)

theorem mem_tdel (t : Tbl α) (k : Nat) (e : Nat × α) (h : e ∈ tdel t k) : e ∈ t ∧ e.1 ≠ k := by
  induction t with
  | nil => simp [tdel] at h
  | cons x r ih =>
    obtain ⟨k', v'⟩ := x
    simp only [tdel] at h
    split at h
    · have := ih h
      exact ⟨List.mem_cons_of_mem _ this.1, this.2⟩
    · simp only [List.mem_cons] at h ⊢
      rcases h with h | h
      · subst h; exact ⟨.inl rfl, by assumption⟩
      · exact ⟨.inr (ih h).1, (ih h).2⟩

theorem tsorted_tput (t : Tbl α) (k : Nat) (v : α) (h : tsorted t = true) : tsorted (tput t k v) = true := by
  induction t with
  | nil => rfl
  | cons x r ih =>
    obtain ⟨k', v'⟩ := x
    rw [tsorted_cons] at h
    simp only [Bool.and_eq_true, List.all_eq_true, decide_eq_true_eq] at h
    simp only [tput]
    split
    · rw [tsorted_cons, tsorted_cons]
      simp only [Bool.and_eq_true, List.all_eq_true, decide_eq_true_eq, List.mem_cons]
      refine ⟨h, ?_⟩
      rintro e (rfl | he)
      · assumption
      · have := h.2 e he
        omega
    · split
      · subst k'
        rw [tsorted_cons]
        simp only [Bool.and_eq_true, List.all_eq_true, decide_eq_true_eq]
        exact h
      · rw [tsorted_cons]
        simp only [Bool.and_eq_true, List.all_eq_true, decide_eq_true_eq]
        refine ⟨ih h.1, fun e he => ?_⟩
        rcases mem_tput _ _ _ _ he with rfl | he
        · simp only; omega
        · exact h.2 e he

theorem tsorted_tdel (t : Tbl α) (k : Nat) (h : tsorted t = true) : tsorted (tdel t k) = true := by
  induction t with
  | nil => rfl
  | cons x r ih =>
    obtain ⟨k', v'⟩ := x
    rw [tsorted_cons] at h
    simp only [Bool.and_eq_true, List.all_eq_true, decide_eq_true_eq] at h
    simp only [tdel]
    split
    · exact ih h.1
    · rw [tsorted_cons]
      simp only [Bool.and_eq_true, List.all_eq_true, decide_eq_true_eq]
      exact ⟨ih h.1, fun e he => h.2 e (mem_tdel _ _ _ he).1⟩

/-- Every write of a table keeps its canonical form. -/
theorem twf_tset [DecidableEq α] (d : α) (t : Tbl α) (k : Nat) (v : α) (h : twf d t = true) :
    twf d (tset d t k v) = true := by
  simp only [twf, Bool.and_eq_true, List.all_eq_true, decide_eq_true_eq] at h ⊢
  unfold tset
  split
  · exact ⟨tsorted_tdel _ _ h.1, fun e he => h.2 e (mem_tdel _ _ _ he).1⟩
  · refine ⟨tsorted_tput _ _ _ h.1, fun e he => ?_⟩
    rcases mem_tput _ _ _ _ he with rfl | he
    · assumption
    · exact h.2 e he

/-- Two tables in canonical form that read alike are the same table. -/
theorem twf_ext [DecidableEq α] (d : α) (t u : Tbl α) (ht : twf d t = true) (hu : twf d u = true)
    (h : ∀ k, tget d t k = tget d u k) : t = u := by
  have below : ∀ (r : Tbl α) (k : Nat), (∀ e ∈ r, k < e.1) → tget d r k = d := by
    intro r
    induction r with
    | nil => intros; rfl
    | cons e r ih =>
      intro k hk
      have h1 := hk e (List.mem_cons_self ..)
      simp only [tget]
      split
      · omega
      · exact ih k fun e he => hk e (List.mem_cons_of_mem _ he)
  induction t generalizing u with
  | nil =>
    cases u with
    | nil => rfl
    | cons e r =>
      simp only [twf, Bool.and_eq_true, List.all_eq_true, decide_eq_true_eq] at hu
      have h1 := h e.1
      simp only [tget, if_true] at h1
      exact absurd h1.symm (hu.2 e (List.mem_cons_self ..))
  | cons e r ih =>
    obtain ⟨k, v⟩ := e
    have ht' := ht
    simp only [twf, Bool.and_eq_true, tsorted_cons, List.all_eq_true, decide_eq_true_eq, List.mem_cons] at ht
    cases u with
    | nil =>
      have h1 := h k
      simp only [tget, if_true] at h1
      exact absurd h1 (ht.2 (k, v) (.inl rfl))
    | cons e' r' =>
      obtain ⟨k', v'⟩ := e'
      simp only [twf, Bool.and_eq_true, tsorted_cons, List.all_eq_true, decide_eq_true_eq, List.mem_cons] at hu
      have hv : v ≠ d := ht.2 (k, v) (.inl rfl)
      have hv' : v' ≠ d := hu.2 (k', v') (.inl rfl)
      have hk : k = k' := by
        rcases Nat.lt_trichotomy k k' with hlt | heq | hlt
        · have h1 := h k
          simp only [tget, if_true] at h1
          rw [if_neg (by omega), below r' k fun e he => Nat.lt_trans hlt (hu.1.2 e he)] at h1
          exact absurd h1 hv
        · exact heq
        · have h1 := h k'
          simp only [tget, if_true] at h1
          rw [if_neg (by omega), below r k' fun e he => Nat.lt_trans hlt (ht.1.2 e he)] at h1
          exact absurd h1.symm hv'
      subst k'
      have hvv : v = v' := by have h1 := h k; simpa [tget] using h1
      subst v'
      congr 1
      apply ih
      · simp only [twf, Bool.and_eq_true, List.all_eq_true, decide_eq_true_eq]
        exact ⟨ht.1.1, fun e he => ht.2 e (.inr he)⟩
      · simp only [twf, Bool.and_eq_true, List.all_eq_true, decide_eq_true_eq]
        exact ⟨hu.1.1, fun e he => hu.2 e (.inr he)⟩
      · intro j
        by_cases hj : j = k
        · subst j; rw [below r k ht.1.2, below r' k hu.1.2]
        · have h1 := h j
          simp only [tget] at h1
          rwa [if_neg (by omega), if_neg (by omega)] at h1

/-! ### Memories -/

theorem mget_mset (m : Mem) (a : Nat) (b : Byte) (j : Nat) : mget (mset m a b) j = if a = j then b else mget m j := tget_tset ..

/-- A byte reads as the one written last to its address, and every other byte as before. -/
theorem mget_mwrite (m : Mem) (a : Nat) (l : Bytes) (j : Nat) :
    mget (mwrite m a l) j = if a ≤ j ∧ j < a + l.length then l.getD (j - a) 0 else mget m j := by
  induction l generalizing m a with
  | nil => rw [if_neg (by simp only [List.length_nil]; omega)]; rfl
  | cons b r ih =>
    simp only [mwrite, ih, mget_mset, List.length_cons]
    by_cases h1 : a + 1 ≤ j ∧ j < a + 1 + r.length
    · rw [if_pos h1, if_pos (by omega), show j - a = (j - (a + 1)) + 1 by omega]
      simp
    · rw [if_neg h1]
      by_cases h2 : a = j
      · rw [if_pos h2, if_pos (by omega)]; subst h2; simp
      · rw [if_neg h2, if_neg (by omega)]

theorem mget_mwrite_outside (m : Mem) (a : Nat) (l : Bytes) (j : Nat) (h : j < a ∨ a + l.length ≤ j) :
    mget (mwrite m a l) j = mget m j := by
  rw [mget_mwrite, if_neg (by omega)]

@[simp] theorem mread_length (m : Mem) (a n : Nat) : (mread m a n).length = n := by
  induction n generalizing a with
  | zero => rfl
  | succ n ih => simp [mread, ih]

theorem mread_getD (m : Mem) (a n k : Nat) (h : k < n) : (mread m a n).getD k 0 = mget m (a + k) := by
  induction n generalizing a k with
  | zero => omega
  | succ n ih =>
    cases k with
    | zero => rfl
    | succ k =>
      simp only [mread, List.getD_cons_succ]
      rw [ih (a + 1) k (by omega)]
      congr 1; omega

/-- Reading the bytes that were just written gives them back. -/
theorem mread_mwrite (m : Mem) (a : Nat) (l : Bytes) : mread (mwrite m a l) a l.length = l := by
  apply List.ext_getElem (by simp)
  intro k h1 h2
  have h3 := mread_getD (mwrite m a l) a l.length k (by simpa using h2)
  rw [mget_mwrite, if_pos (by omega), Nat.add_sub_cancel_left] at h3
  simpa [List.getD_eq_getElem?_getD, h1, h2] using h3

theorem wf_mset (m : Mem) (a : Nat) (b : Byte) (h : Memory.wf m = true) : Memory.wf (mset m a b) = true := twf_tset _ _ _ _ h

theorem wf_mwrite (m : Mem) (a : Nat) (l : Bytes) (h : Memory.wf m = true) : Memory.wf (mwrite m a l) = true := by
  induction l generalizing m a with
  | nil => exact h
  | cons b r ih => exact ih _ _ (wf_mset _ _ _ h)

theorem wf_norm (m : Mem) : Memory.wf (Memory.norm m) = true := by
  unfold Memory.norm
  split
  · assumption
  · have h : ∀ (l : Mem) (r : Mem), Memory.wf r = true → Memory.wf (l.foldl (fun r e => mset r e.1 e.2) r) = true := by
      intro l
      induction l with
      | nil => intro r hr; exact hr
      | cons e l ih => intro r hr; exact ih _ (wf_mset _ _ _ hr)
    exact h _ _ rfl

@[simp] theorem norm_of_wf (m : Mem) (h : Memory.wf m = true) : Memory.norm m = m := by simp [Memory.norm, h]

/-- Leaving entries out keeps the canonical form. -/
theorem wf_filter (m : Mem) (p : Nat × Byte → Bool) (h : Memory.wf m = true) : Memory.wf (m.filter p) = true := by
  unfold Memory.wf twf at *
  simp only [Bool.and_eq_true, List.all_eq_true, decide_eq_true_eq] at h ⊢
  refine ⟨?_, fun e he => h.2 e (List.mem_filter.mp he).1⟩
  have hs := h.1
  clear h
  induction m with
  | nil => rfl
  | cons e r ih =>
    rw [tsorted_cons] at hs
    simp only [Bool.and_eq_true, List.all_eq_true, decide_eq_true_eq] at hs
    simp only [List.filter_cons]
    split
    · rw [tsorted_cons]
      simp only [Bool.and_eq_true, List.all_eq_true, decide_eq_true_eq]
      exact ⟨ih hs.1, fun e he => hs.2 e (List.mem_filter.mp he).1⟩
    · exact ih hs.1

theorem wf_nil : Memory.wf [] = true := rfl

/-- Every memory of the state after reset is in canonical form. -/
theorem reset_memories : Memory.wf State.reset.mem.ts = true ∧ Memory.wf State.reset.mem.rsv = true ∧
    Memory.wf State.reset.mem.hbm = true ∧ Memory.wf State.reset.host.mem = true ∧
    Memory.wf State.reset.boot.window = true :=
  ⟨rfl, rfl, rfl, rfl, rfl⟩

end Sys2Proof.Machine
end

