-- ==== Sys2Proof/Laws/State.lean ====
section
/-!
SUPPORT. What each update of the state leaves in each of its fields, one lemma a field, and what each accessor reads
after the update of its kind.
-/
namespace Sys2Proof.Machine

variable (s : State)

/-! ### State.setTile -/

@[simp] theorem setTile_cycle (t : Nat) (x : Tile) : (s.setTile t x).cycle = s.cycle := rfl
@[simp] theorem setTile_tiles (t : Nat) (x : Tile) : (s.setTile t x).tiles = tset {} s.tiles t x := rfl
@[simp] theorem setTile_mem (t : Nat) (x : Tile) : (s.setTile t x).mem = s.mem := rfl
@[simp] theorem setTile_felt (t : Nat) (x : Tile) : (s.setTile t x).felt = s.felt := rfl
@[simp] theorem setTile_mesh (t : Nat) (x : Tile) : (s.setTile t x).mesh = s.mesh := rfl
@[simp] theorem setTile_que (t : Nat) (x : Tile) : (s.setTile t x).que = s.que := rfl
@[simp] theorem setTile_pulp (t : Nat) (x : Tile) : (s.setTile t x).pulp = s.pulp := rfl
@[simp] theorem setTile_slots (t : Nat) (x : Tile) : (s.setTile t x).slots = s.slots := rfl
@[simp] theorem setTile_log (t : Nat) (x : Tile) : (s.setTile t x).log = s.log := rfl
@[simp] theorem setTile_red (t : Nat) (x : Tile) : (s.setTile t x).red = s.red := rfl
@[simp] theorem setTile_ports (t : Nat) (x : Tile) : (s.setTile t x).ports = s.ports := rfl
@[simp] theorem setTile_presets (t : Nat) (x : Tile) : (s.setTile t x).presets = s.presets := rfl
@[simp] theorem setTile_tideHeld (t : Nat) (x : Tile) : (s.setTile t x).tideHeld = s.tideHeld := rfl
@[simp] theorem setTile_linkN (t : Nat) (x : Tile) : (s.setTile t x).linkN = s.linkN := rfl
@[simp] theorem setTile_clk (t : Nat) (x : Tile) : (s.setTile t x).clk = s.clk := rfl
@[simp] theorem setTile_host (t : Nat) (x : Tile) : (s.setTile t x).host = s.host := rfl
@[simp] theorem setTile_pwr (t : Nat) (x : Tile) : (s.setTile t x).pwr = s.pwr := rfl
@[simp] theorem setTile_ras (t : Nat) (x : Tile) : (s.setTile t x).ras = s.ras := rfl
@[simp] theorem setTile_boot (t : Nat) (x : Tile) : (s.setTile t x).boot = s.boot := rfl
@[simp] theorem setTile_sec (t : Nat) (x : Tile) : (s.setTile t x).sec = s.sec := rfl
@[simp] theorem setTile_mgmt (t : Nat) (x : Tile) : (s.setTile t x).mgmt = s.mgmt := rfl
@[simp] theorem setTile_md (t : Nat) (x : Tile) : (s.setTile t x).md = s.md := rfl
@[simp] theorem setTile_irq (t : Nat) (x : Tile) : (s.setTile t x).irq = s.irq := rfl
@[simp] theorem setTile_msixMask (t : Nat) (x : Tile) : (s.setTile t x).msixMask = s.msixMask := rfl
@[simp] theorem setTile_msixPend (t : Nat) (x : Tile) : (s.setTile t x).msixPend = s.msixPend := rfl
@[simp] theorem setTile_xfHeld (t : Nat) (x : Tile) : (s.setTile t x).xfHeld = s.xfHeld := rfl
@[simp] theorem setTile_slipHeld (t : Nat) (x : Tile) : (s.setTile t x).slipHeld = s.slipHeld := rfl
@[simp] theorem setTile_fatalHeld (t : Nat) (x : Tile) : (s.setTile t x).fatalHeld = s.fatalHeld := rfl
@[simp] theorem setTile_ticks (t : Nat) (x : Tile) : (s.setTile t x).ticks = s.ticks := rfl
@[simp] theorem setTile_pulpDone (t : Nat) (x : Tile) : (s.setTile t x).pulpDone = s.pulpDone := rfl
@[simp] theorem setTile_pulpLogged (t : Nat) (x : Tile) : (s.setTile t x).pulpLogged = s.pulpLogged := rfl
@[simp] theorem setTile_uid (t : Nat) (x : Tile) : (s.setTile t x).uid = s.uid := rfl
@[simp] theorem setTile_freeN (t : Nat) (x : Tile) : (s.setTile t x).freeN = s.freeN := rfl
@[simp] theorem setTile_regs (t : Nat) (x : Tile) : (s.setTile t x).regs = s.regs := rfl
@[simp] theorem setTile_latch (t : Nat) (x : Tile) : (s.setTile t x).latch = s.latch := rfl
@[simp] theorem setTile_sched (t : Nat) (x : Tile) : (s.setTile t x).sched = s.sched := rfl
@[simp] theorem setTile_pending (t : Nat) (x : Tile) : (s.setTile t x).pending = s.pending := rfl

/-! ### State.setReg -/

@[simp] theorem setReg_cycle (n : RegNo) (v : Word) : (s.setReg n v).cycle = s.cycle := rfl
@[simp] theorem setReg_tiles (n : RegNo) (v : Word) : (s.setReg n v).tiles = s.tiles := rfl
@[simp] theorem setReg_mem (n : RegNo) (v : Word) : (s.setReg n v).mem = s.mem := rfl
@[simp] theorem setReg_felt (n : RegNo) (v : Word) : (s.setReg n v).felt = s.felt := rfl
@[simp] theorem setReg_mesh (n : RegNo) (v : Word) : (s.setReg n v).mesh = s.mesh := rfl
@[simp] theorem setReg_que (n : RegNo) (v : Word) : (s.setReg n v).que = s.que := rfl
@[simp] theorem setReg_pulp (n : RegNo) (v : Word) : (s.setReg n v).pulp = s.pulp := rfl
@[simp] theorem setReg_slots (n : RegNo) (v : Word) : (s.setReg n v).slots = s.slots := rfl
@[simp] theorem setReg_log (n : RegNo) (v : Word) : (s.setReg n v).log = s.log := rfl
@[simp] theorem setReg_red (n : RegNo) (v : Word) : (s.setReg n v).red = s.red := rfl
@[simp] theorem setReg_ports (n : RegNo) (v : Word) : (s.setReg n v).ports = s.ports := rfl
@[simp] theorem setReg_presets (n : RegNo) (v : Word) : (s.setReg n v).presets = s.presets := rfl
@[simp] theorem setReg_tideHeld (n : RegNo) (v : Word) : (s.setReg n v).tideHeld = s.tideHeld := rfl
@[simp] theorem setReg_linkN (n : RegNo) (v : Word) : (s.setReg n v).linkN = s.linkN := rfl
@[simp] theorem setReg_clk (n : RegNo) (v : Word) : (s.setReg n v).clk = s.clk := rfl
@[simp] theorem setReg_host (n : RegNo) (v : Word) : (s.setReg n v).host = s.host := rfl
@[simp] theorem setReg_pwr (n : RegNo) (v : Word) : (s.setReg n v).pwr = s.pwr := rfl
@[simp] theorem setReg_ras (n : RegNo) (v : Word) : (s.setReg n v).ras = s.ras := rfl
@[simp] theorem setReg_boot (n : RegNo) (v : Word) : (s.setReg n v).boot = s.boot := rfl
@[simp] theorem setReg_sec (n : RegNo) (v : Word) : (s.setReg n v).sec = s.sec := rfl
@[simp] theorem setReg_mgmt (n : RegNo) (v : Word) : (s.setReg n v).mgmt = s.mgmt := rfl
@[simp] theorem setReg_md (n : RegNo) (v : Word) : (s.setReg n v).md = s.md := rfl
@[simp] theorem setReg_irq (n : RegNo) (v : Word) : (s.setReg n v).irq = s.irq := rfl
@[simp] theorem setReg_msixMask (n : RegNo) (v : Word) : (s.setReg n v).msixMask = s.msixMask := rfl
@[simp] theorem setReg_msixPend (n : RegNo) (v : Word) : (s.setReg n v).msixPend = s.msixPend := rfl
@[simp] theorem setReg_xfHeld (n : RegNo) (v : Word) : (s.setReg n v).xfHeld = s.xfHeld := rfl
@[simp] theorem setReg_slipHeld (n : RegNo) (v : Word) : (s.setReg n v).slipHeld = s.slipHeld := rfl
@[simp] theorem setReg_fatalHeld (n : RegNo) (v : Word) : (s.setReg n v).fatalHeld = s.fatalHeld := rfl
@[simp] theorem setReg_ticks (n : RegNo) (v : Word) : (s.setReg n v).ticks = s.ticks := rfl
@[simp] theorem setReg_pulpDone (n : RegNo) (v : Word) : (s.setReg n v).pulpDone = s.pulpDone := rfl
@[simp] theorem setReg_pulpLogged (n : RegNo) (v : Word) : (s.setReg n v).pulpLogged = s.pulpLogged := rfl
@[simp] theorem setReg_uid (n : RegNo) (v : Word) : (s.setReg n v).uid = s.uid := rfl
@[simp] theorem setReg_freeN (n : RegNo) (v : Word) : (s.setReg n v).freeN = s.freeN := rfl
@[simp] theorem setReg_regs (n : RegNo) (v : Word) : (s.setReg n v).regs = { s.regs with val := tset (Reg.reset n) s.regs.val n v } := rfl
@[simp] theorem setReg_latch (n : RegNo) (v : Word) : (s.setReg n v).latch = s.latch := rfl
@[simp] theorem setReg_sched (n : RegNo) (v : Word) : (s.setReg n v).sched = s.sched := rfl
@[simp] theorem setReg_pending (n : RegNo) (v : Word) : (s.setReg n v).pending = s.pending := rfl

/-! ### State.setBits -/

@[simp] theorem setBits_cycle (n : RegNo) (m : Nat) : (s.setBits n m).cycle = s.cycle := rfl
@[simp] theorem setBits_tiles (n : RegNo) (m : Nat) : (s.setBits n m).tiles = s.tiles := rfl
@[simp] theorem setBits_mem (n : RegNo) (m : Nat) : (s.setBits n m).mem = s.mem := rfl
@[simp] theorem setBits_felt (n : RegNo) (m : Nat) : (s.setBits n m).felt = s.felt := rfl
@[simp] theorem setBits_mesh (n : RegNo) (m : Nat) : (s.setBits n m).mesh = s.mesh := rfl
@[simp] theorem setBits_que (n : RegNo) (m : Nat) : (s.setBits n m).que = s.que := rfl
@[simp] theorem setBits_pulp (n : RegNo) (m : Nat) : (s.setBits n m).pulp = s.pulp := rfl
@[simp] theorem setBits_slots (n : RegNo) (m : Nat) : (s.setBits n m).slots = s.slots := rfl
@[simp] theorem setBits_log (n : RegNo) (m : Nat) : (s.setBits n m).log = s.log := rfl
@[simp] theorem setBits_red (n : RegNo) (m : Nat) : (s.setBits n m).red = s.red := rfl
@[simp] theorem setBits_ports (n : RegNo) (m : Nat) : (s.setBits n m).ports = s.ports := rfl
@[simp] theorem setBits_presets (n : RegNo) (m : Nat) : (s.setBits n m).presets = s.presets := rfl
@[simp] theorem setBits_tideHeld (n : RegNo) (m : Nat) : (s.setBits n m).tideHeld = s.tideHeld := rfl
@[simp] theorem setBits_linkN (n : RegNo) (m : Nat) : (s.setBits n m).linkN = s.linkN := rfl
@[simp] theorem setBits_clk (n : RegNo) (m : Nat) : (s.setBits n m).clk = s.clk := rfl
@[simp] theorem setBits_host (n : RegNo) (m : Nat) : (s.setBits n m).host = s.host := rfl
@[simp] theorem setBits_pwr (n : RegNo) (m : Nat) : (s.setBits n m).pwr = s.pwr := rfl
@[simp] theorem setBits_ras (n : RegNo) (m : Nat) : (s.setBits n m).ras = s.ras := rfl
@[simp] theorem setBits_boot (n : RegNo) (m : Nat) : (s.setBits n m).boot = s.boot := rfl
@[simp] theorem setBits_sec (n : RegNo) (m : Nat) : (s.setBits n m).sec = s.sec := rfl
@[simp] theorem setBits_mgmt (n : RegNo) (m : Nat) : (s.setBits n m).mgmt = s.mgmt := rfl
@[simp] theorem setBits_md (n : RegNo) (m : Nat) : (s.setBits n m).md = s.md := rfl
@[simp] theorem setBits_irq (n : RegNo) (m : Nat) : (s.setBits n m).irq = s.irq := rfl
@[simp] theorem setBits_msixMask (n : RegNo) (m : Nat) : (s.setBits n m).msixMask = s.msixMask := rfl
@[simp] theorem setBits_msixPend (n : RegNo) (m : Nat) : (s.setBits n m).msixPend = s.msixPend := rfl
@[simp] theorem setBits_xfHeld (n : RegNo) (m : Nat) : (s.setBits n m).xfHeld = s.xfHeld := rfl
@[simp] theorem setBits_slipHeld (n : RegNo) (m : Nat) : (s.setBits n m).slipHeld = s.slipHeld := rfl
@[simp] theorem setBits_fatalHeld (n : RegNo) (m : Nat) : (s.setBits n m).fatalHeld = s.fatalHeld := rfl
@[simp] theorem setBits_ticks (n : RegNo) (m : Nat) : (s.setBits n m).ticks = s.ticks := rfl
@[simp] theorem setBits_pulpDone (n : RegNo) (m : Nat) : (s.setBits n m).pulpDone = s.pulpDone := rfl
@[simp] theorem setBits_pulpLogged (n : RegNo) (m : Nat) : (s.setBits n m).pulpLogged = s.pulpLogged := rfl
@[simp] theorem setBits_uid (n : RegNo) (m : Nat) : (s.setBits n m).uid = s.uid := rfl
@[simp] theorem setBits_freeN (n : RegNo) (m : Nat) : (s.setBits n m).freeN = s.freeN := rfl
@[simp] theorem setBits_regs (n : RegNo) (m : Nat) : (s.setBits n m).regs = { s.regs with val := tset (Reg.reset n) s.regs.val n (s.reg n ||| BitVec.ofNat 32 m), set := tset 0 s.regs.set n (s.setNow n ||| BitVec.ofNat 32 m) } := rfl
@[simp] theorem setBits_latch (n : RegNo) (m : Nat) : (s.setBits n m).latch = s.latch := rfl
@[simp] theorem setBits_sched (n : RegNo) (m : Nat) : (s.setBits n m).sched = s.sched := rfl
@[simp] theorem setBits_pending (n : RegNo) (m : Nat) : (s.setBits n m).pending = s.pending := rfl

/-! ### State.bump -/

@[simp] theorem bump_cycle (n : RegNo) (k : Nat) : (s.bump n k).cycle = s.cycle := rfl
@[simp] theorem bump_tiles (n : RegNo) (k : Nat) : (s.bump n k).tiles = s.tiles := rfl
@[simp] theorem bump_mem (n : RegNo) (k : Nat) : (s.bump n k).mem = s.mem := rfl
@[simp] theorem bump_felt (n : RegNo) (k : Nat) : (s.bump n k).felt = s.felt := rfl
@[simp] theorem bump_mesh (n : RegNo) (k : Nat) : (s.bump n k).mesh = s.mesh := rfl
@[simp] theorem bump_que (n : RegNo) (k : Nat) : (s.bump n k).que = s.que := rfl
@[simp] theorem bump_pulp (n : RegNo) (k : Nat) : (s.bump n k).pulp = s.pulp := rfl
@[simp] theorem bump_slots (n : RegNo) (k : Nat) : (s.bump n k).slots = s.slots := rfl
@[simp] theorem bump_log (n : RegNo) (k : Nat) : (s.bump n k).log = s.log := rfl
@[simp] theorem bump_red (n : RegNo) (k : Nat) : (s.bump n k).red = s.red := rfl
@[simp] theorem bump_ports (n : RegNo) (k : Nat) : (s.bump n k).ports = s.ports := rfl
@[simp] theorem bump_presets (n : RegNo) (k : Nat) : (s.bump n k).presets = s.presets := rfl
@[simp] theorem bump_tideHeld (n : RegNo) (k : Nat) : (s.bump n k).tideHeld = s.tideHeld := rfl
@[simp] theorem bump_linkN (n : RegNo) (k : Nat) : (s.bump n k).linkN = s.linkN := rfl
@[simp] theorem bump_clk (n : RegNo) (k : Nat) : (s.bump n k).clk = s.clk := rfl
@[simp] theorem bump_host (n : RegNo) (k : Nat) : (s.bump n k).host = s.host := rfl
@[simp] theorem bump_pwr (n : RegNo) (k : Nat) : (s.bump n k).pwr = s.pwr := rfl
@[simp] theorem bump_ras (n : RegNo) (k : Nat) : (s.bump n k).ras = s.ras := rfl
@[simp] theorem bump_boot (n : RegNo) (k : Nat) : (s.bump n k).boot = s.boot := rfl
@[simp] theorem bump_sec (n : RegNo) (k : Nat) : (s.bump n k).sec = s.sec := rfl
@[simp] theorem bump_mgmt (n : RegNo) (k : Nat) : (s.bump n k).mgmt = s.mgmt := rfl
@[simp] theorem bump_md (n : RegNo) (k : Nat) : (s.bump n k).md = s.md := rfl
@[simp] theorem bump_irq (n : RegNo) (k : Nat) : (s.bump n k).irq = s.irq := rfl
@[simp] theorem bump_msixMask (n : RegNo) (k : Nat) : (s.bump n k).msixMask = s.msixMask := rfl
@[simp] theorem bump_msixPend (n : RegNo) (k : Nat) : (s.bump n k).msixPend = s.msixPend := rfl
@[simp] theorem bump_xfHeld (n : RegNo) (k : Nat) : (s.bump n k).xfHeld = s.xfHeld := rfl
@[simp] theorem bump_slipHeld (n : RegNo) (k : Nat) : (s.bump n k).slipHeld = s.slipHeld := rfl
@[simp] theorem bump_fatalHeld (n : RegNo) (k : Nat) : (s.bump n k).fatalHeld = s.fatalHeld := rfl
@[simp] theorem bump_ticks (n : RegNo) (k : Nat) : (s.bump n k).ticks = s.ticks := rfl
@[simp] theorem bump_pulpDone (n : RegNo) (k : Nat) : (s.bump n k).pulpDone = s.pulpDone := rfl
@[simp] theorem bump_pulpLogged (n : RegNo) (k : Nat) : (s.bump n k).pulpLogged = s.pulpLogged := rfl
@[simp] theorem bump_uid (n : RegNo) (k : Nat) : (s.bump n k).uid = s.uid := rfl
@[simp] theorem bump_freeN (n : RegNo) (k : Nat) : (s.bump n k).freeN = s.freeN := rfl
@[simp] theorem bump_regs (n : RegNo) (k : Nat) : (s.bump n k).regs = { s.regs with val := tset (Reg.reset n) s.regs.val n (BitVec.ofNat 32 (min 0xFFFFFFFF ((s.reg n).toNat + k))), cnt := tset 0 s.regs.cnt n (s.cntNow n + k) } := rfl
@[simp] theorem bump_latch (n : RegNo) (k : Nat) : (s.bump n k).latch = s.latch := rfl
@[simp] theorem bump_sched (n : RegNo) (k : Nat) : (s.bump n k).sched = s.sched := rfl
@[simp] theorem bump_pending (n : RegNo) (k : Nat) : (s.bump n k).pending = s.pending := rfl

/-! ### State.setSlot -/

@[simp] theorem setSlot_cycle (k : Nat) (p : Slot) : (s.setSlot k p).cycle = s.cycle := rfl
@[simp] theorem setSlot_tiles (k : Nat) (p : Slot) : (s.setSlot k p).tiles = s.tiles := rfl
@[simp] theorem setSlot_mem (k : Nat) (p : Slot) : (s.setSlot k p).mem = s.mem := rfl
@[simp] theorem setSlot_felt (k : Nat) (p : Slot) : (s.setSlot k p).felt = s.felt := rfl
@[simp] theorem setSlot_mesh (k : Nat) (p : Slot) : (s.setSlot k p).mesh = s.mesh := rfl
@[simp] theorem setSlot_que (k : Nat) (p : Slot) : (s.setSlot k p).que = s.que := rfl
@[simp] theorem setSlot_pulp (k : Nat) (p : Slot) : (s.setSlot k p).pulp = s.pulp := rfl
@[simp] theorem setSlot_slots (k : Nat) (p : Slot) : (s.setSlot k p).slots = tset {} s.slots k p := rfl
@[simp] theorem setSlot_log (k : Nat) (p : Slot) : (s.setSlot k p).log = s.log := rfl
@[simp] theorem setSlot_red (k : Nat) (p : Slot) : (s.setSlot k p).red = s.red := rfl
@[simp] theorem setSlot_ports (k : Nat) (p : Slot) : (s.setSlot k p).ports = s.ports := rfl
@[simp] theorem setSlot_presets (k : Nat) (p : Slot) : (s.setSlot k p).presets = s.presets := rfl
@[simp] theorem setSlot_tideHeld (k : Nat) (p : Slot) : (s.setSlot k p).tideHeld = s.tideHeld := rfl
@[simp] theorem setSlot_linkN (k : Nat) (p : Slot) : (s.setSlot k p).linkN = s.linkN := rfl
@[simp] theorem setSlot_clk (k : Nat) (p : Slot) : (s.setSlot k p).clk = s.clk := rfl
@[simp] theorem setSlot_host (k : Nat) (p : Slot) : (s.setSlot k p).host = s.host := rfl
@[simp] theorem setSlot_pwr (k : Nat) (p : Slot) : (s.setSlot k p).pwr = s.pwr := rfl
@[simp] theorem setSlot_ras (k : Nat) (p : Slot) : (s.setSlot k p).ras = s.ras := rfl
@[simp] theorem setSlot_boot (k : Nat) (p : Slot) : (s.setSlot k p).boot = s.boot := rfl
@[simp] theorem setSlot_sec (k : Nat) (p : Slot) : (s.setSlot k p).sec = s.sec := rfl
@[simp] theorem setSlot_mgmt (k : Nat) (p : Slot) : (s.setSlot k p).mgmt = s.mgmt := rfl
@[simp] theorem setSlot_md (k : Nat) (p : Slot) : (s.setSlot k p).md = s.md := rfl
@[simp] theorem setSlot_irq (k : Nat) (p : Slot) : (s.setSlot k p).irq = s.irq := rfl
@[simp] theorem setSlot_msixMask (k : Nat) (p : Slot) : (s.setSlot k p).msixMask = s.msixMask := rfl
@[simp] theorem setSlot_msixPend (k : Nat) (p : Slot) : (s.setSlot k p).msixPend = s.msixPend := rfl
@[simp] theorem setSlot_xfHeld (k : Nat) (p : Slot) : (s.setSlot k p).xfHeld = s.xfHeld := rfl
@[simp] theorem setSlot_slipHeld (k : Nat) (p : Slot) : (s.setSlot k p).slipHeld = s.slipHeld := rfl
@[simp] theorem setSlot_fatalHeld (k : Nat) (p : Slot) : (s.setSlot k p).fatalHeld = s.fatalHeld := rfl
@[simp] theorem setSlot_ticks (k : Nat) (p : Slot) : (s.setSlot k p).ticks = s.ticks := rfl
@[simp] theorem setSlot_pulpDone (k : Nat) (p : Slot) : (s.setSlot k p).pulpDone = s.pulpDone := rfl
@[simp] theorem setSlot_pulpLogged (k : Nat) (p : Slot) : (s.setSlot k p).pulpLogged = s.pulpLogged := rfl
@[simp] theorem setSlot_uid (k : Nat) (p : Slot) : (s.setSlot k p).uid = s.uid := rfl
@[simp] theorem setSlot_freeN (k : Nat) (p : Slot) : (s.setSlot k p).freeN = s.freeN := rfl
@[simp] theorem setSlot_regs (k : Nat) (p : Slot) : (s.setSlot k p).regs = s.regs := rfl
@[simp] theorem setSlot_latch (k : Nat) (p : Slot) : (s.setSlot k p).latch = s.latch := rfl
@[simp] theorem setSlot_sched (k : Nat) (p : Slot) : (s.setSlot k p).sched = s.sched := rfl
@[simp] theorem setSlot_pending (k : Nat) (p : Slot) : (s.setSlot k p).pending = s.pending := rfl

/-! ### State.setPort -/

@[simp] theorem setPort_cycle (p : Nat) (x : Port) : (s.setPort p x).cycle = s.cycle := rfl
@[simp] theorem setPort_tiles (p : Nat) (x : Port) : (s.setPort p x).tiles = s.tiles := rfl
@[simp] theorem setPort_mem (p : Nat) (x : Port) : (s.setPort p x).mem = s.mem := rfl
@[simp] theorem setPort_felt (p : Nat) (x : Port) : (s.setPort p x).felt = s.felt := rfl
@[simp] theorem setPort_mesh (p : Nat) (x : Port) : (s.setPort p x).mesh = s.mesh := rfl
@[simp] theorem setPort_que (p : Nat) (x : Port) : (s.setPort p x).que = s.que := rfl
@[simp] theorem setPort_pulp (p : Nat) (x : Port) : (s.setPort p x).pulp = s.pulp := rfl
@[simp] theorem setPort_slots (p : Nat) (x : Port) : (s.setPort p x).slots = s.slots := rfl
@[simp] theorem setPort_log (p : Nat) (x : Port) : (s.setPort p x).log = s.log := rfl
@[simp] theorem setPort_red (p : Nat) (x : Port) : (s.setPort p x).red = s.red := rfl
@[simp] theorem setPort_ports (p : Nat) (x : Port) : (s.setPort p x).ports = tset {} s.ports p x := rfl
@[simp] theorem setPort_presets (p : Nat) (x : Port) : (s.setPort p x).presets = s.presets := rfl
@[simp] theorem setPort_tideHeld (p : Nat) (x : Port) : (s.setPort p x).tideHeld = s.tideHeld := rfl
@[simp] theorem setPort_linkN (p : Nat) (x : Port) : (s.setPort p x).linkN = s.linkN := rfl
@[simp] theorem setPort_clk (p : Nat) (x : Port) : (s.setPort p x).clk = s.clk := rfl
@[simp] theorem setPort_host (p : Nat) (x : Port) : (s.setPort p x).host = s.host := rfl
@[simp] theorem setPort_pwr (p : Nat) (x : Port) : (s.setPort p x).pwr = s.pwr := rfl
@[simp] theorem setPort_ras (p : Nat) (x : Port) : (s.setPort p x).ras = s.ras := rfl
@[simp] theorem setPort_boot (p : Nat) (x : Port) : (s.setPort p x).boot = s.boot := rfl
@[simp] theorem setPort_sec (p : Nat) (x : Port) : (s.setPort p x).sec = s.sec := rfl
@[simp] theorem setPort_mgmt (p : Nat) (x : Port) : (s.setPort p x).mgmt = s.mgmt := rfl
@[simp] theorem setPort_md (p : Nat) (x : Port) : (s.setPort p x).md = s.md := rfl
@[simp] theorem setPort_irq (p : Nat) (x : Port) : (s.setPort p x).irq = s.irq := rfl
@[simp] theorem setPort_msixMask (p : Nat) (x : Port) : (s.setPort p x).msixMask = s.msixMask := rfl
@[simp] theorem setPort_msixPend (p : Nat) (x : Port) : (s.setPort p x).msixPend = s.msixPend := rfl
@[simp] theorem setPort_xfHeld (p : Nat) (x : Port) : (s.setPort p x).xfHeld = s.xfHeld := rfl
@[simp] theorem setPort_slipHeld (p : Nat) (x : Port) : (s.setPort p x).slipHeld = s.slipHeld := rfl
@[simp] theorem setPort_fatalHeld (p : Nat) (x : Port) : (s.setPort p x).fatalHeld = s.fatalHeld := rfl
@[simp] theorem setPort_ticks (p : Nat) (x : Port) : (s.setPort p x).ticks = s.ticks := rfl
@[simp] theorem setPort_pulpDone (p : Nat) (x : Port) : (s.setPort p x).pulpDone = s.pulpDone := rfl
@[simp] theorem setPort_pulpLogged (p : Nat) (x : Port) : (s.setPort p x).pulpLogged = s.pulpLogged := rfl
@[simp] theorem setPort_uid (p : Nat) (x : Port) : (s.setPort p x).uid = s.uid := rfl
@[simp] theorem setPort_freeN (p : Nat) (x : Port) : (s.setPort p x).freeN = s.freeN := rfl
@[simp] theorem setPort_regs (p : Nat) (x : Port) : (s.setPort p x).regs = s.regs := rfl
@[simp] theorem setPort_latch (p : Nat) (x : Port) : (s.setPort p x).latch = s.latch := rfl
@[simp] theorem setPort_sched (p : Nat) (x : Port) : (s.setPort p x).sched = s.sched := rfl
@[simp] theorem setPort_pending (p : Nat) (x : Port) : (s.setPort p x).pending = s.pending := rfl

/-! ### State.setBank -/

@[simp] theorem setBank_cycle (t b : Nat) (x : Bank) : (s.setBank t b x).cycle = s.cycle := rfl
@[simp] theorem setBank_tiles (t b : Nat) (x : Bank) : (s.setBank t b x).tiles = tset {} s.tiles t { s.tile t with banks := tset {} (s.tile t).banks b x } := rfl
@[simp] theorem setBank_mem (t b : Nat) (x : Bank) : (s.setBank t b x).mem = s.mem := rfl
@[simp] theorem setBank_felt (t b : Nat) (x : Bank) : (s.setBank t b x).felt = s.felt := rfl
@[simp] theorem setBank_mesh (t b : Nat) (x : Bank) : (s.setBank t b x).mesh = s.mesh := rfl
@[simp] theorem setBank_que (t b : Nat) (x : Bank) : (s.setBank t b x).que = s.que := rfl
@[simp] theorem setBank_pulp (t b : Nat) (x : Bank) : (s.setBank t b x).pulp = s.pulp := rfl
@[simp] theorem setBank_slots (t b : Nat) (x : Bank) : (s.setBank t b x).slots = s.slots := rfl
@[simp] theorem setBank_log (t b : Nat) (x : Bank) : (s.setBank t b x).log = s.log := rfl
@[simp] theorem setBank_red (t b : Nat) (x : Bank) : (s.setBank t b x).red = s.red := rfl
@[simp] theorem setBank_ports (t b : Nat) (x : Bank) : (s.setBank t b x).ports = s.ports := rfl
@[simp] theorem setBank_presets (t b : Nat) (x : Bank) : (s.setBank t b x).presets = s.presets := rfl
@[simp] theorem setBank_tideHeld (t b : Nat) (x : Bank) : (s.setBank t b x).tideHeld = s.tideHeld := rfl
@[simp] theorem setBank_linkN (t b : Nat) (x : Bank) : (s.setBank t b x).linkN = s.linkN := rfl
@[simp] theorem setBank_clk (t b : Nat) (x : Bank) : (s.setBank t b x).clk = s.clk := rfl
@[simp] theorem setBank_host (t b : Nat) (x : Bank) : (s.setBank t b x).host = s.host := rfl
@[simp] theorem setBank_pwr (t b : Nat) (x : Bank) : (s.setBank t b x).pwr = s.pwr := rfl
@[simp] theorem setBank_ras (t b : Nat) (x : Bank) : (s.setBank t b x).ras = s.ras := rfl
@[simp] theorem setBank_boot (t b : Nat) (x : Bank) : (s.setBank t b x).boot = s.boot := rfl
@[simp] theorem setBank_sec (t b : Nat) (x : Bank) : (s.setBank t b x).sec = s.sec := rfl
@[simp] theorem setBank_mgmt (t b : Nat) (x : Bank) : (s.setBank t b x).mgmt = s.mgmt := rfl
@[simp] theorem setBank_md (t b : Nat) (x : Bank) : (s.setBank t b x).md = s.md := rfl
@[simp] theorem setBank_irq (t b : Nat) (x : Bank) : (s.setBank t b x).irq = s.irq := rfl
@[simp] theorem setBank_msixMask (t b : Nat) (x : Bank) : (s.setBank t b x).msixMask = s.msixMask := rfl
@[simp] theorem setBank_msixPend (t b : Nat) (x : Bank) : (s.setBank t b x).msixPend = s.msixPend := rfl
@[simp] theorem setBank_xfHeld (t b : Nat) (x : Bank) : (s.setBank t b x).xfHeld = s.xfHeld := rfl
@[simp] theorem setBank_slipHeld (t b : Nat) (x : Bank) : (s.setBank t b x).slipHeld = s.slipHeld := rfl
@[simp] theorem setBank_fatalHeld (t b : Nat) (x : Bank) : (s.setBank t b x).fatalHeld = s.fatalHeld := rfl
@[simp] theorem setBank_ticks (t b : Nat) (x : Bank) : (s.setBank t b x).ticks = s.ticks := rfl
@[simp] theorem setBank_pulpDone (t b : Nat) (x : Bank) : (s.setBank t b x).pulpDone = s.pulpDone := rfl
@[simp] theorem setBank_pulpLogged (t b : Nat) (x : Bank) : (s.setBank t b x).pulpLogged = s.pulpLogged := rfl
@[simp] theorem setBank_uid (t b : Nat) (x : Bank) : (s.setBank t b x).uid = s.uid := rfl
@[simp] theorem setBank_freeN (t b : Nat) (x : Bank) : (s.setBank t b x).freeN = s.freeN := rfl
@[simp] theorem setBank_regs (t b : Nat) (x : Bank) : (s.setBank t b x).regs = s.regs := rfl
@[simp] theorem setBank_latch (t b : Nat) (x : Bank) : (s.setBank t b x).latch = s.latch := rfl
@[simp] theorem setBank_sched (t b : Nat) (x : Bank) : (s.setBank t b x).sched = s.sched := rfl
@[simp] theorem setBank_pending (t b : Nat) (x : Bank) : (s.setBank t b x).pending = s.pending := rfl

/-! ### State.sch -/

@[simp] theorem sch_cycle (due : Nat) (e : Effect) : (s.sch due e).cycle = s.cycle := rfl
@[simp] theorem sch_tiles (due : Nat) (e : Effect) : (s.sch due e).tiles = s.tiles := rfl
@[simp] theorem sch_mem (due : Nat) (e : Effect) : (s.sch due e).mem = s.mem := rfl
@[simp] theorem sch_felt (due : Nat) (e : Effect) : (s.sch due e).felt = s.felt := rfl
@[simp] theorem sch_mesh (due : Nat) (e : Effect) : (s.sch due e).mesh = s.mesh := rfl
@[simp] theorem sch_que (due : Nat) (e : Effect) : (s.sch due e).que = s.que := rfl
@[simp] theorem sch_pulp (due : Nat) (e : Effect) : (s.sch due e).pulp = s.pulp := rfl
@[simp] theorem sch_slots (due : Nat) (e : Effect) : (s.sch due e).slots = s.slots := rfl
@[simp] theorem sch_log (due : Nat) (e : Effect) : (s.sch due e).log = s.log := rfl
@[simp] theorem sch_red (due : Nat) (e : Effect) : (s.sch due e).red = s.red := rfl
@[simp] theorem sch_ports (due : Nat) (e : Effect) : (s.sch due e).ports = s.ports := rfl
@[simp] theorem sch_presets (due : Nat) (e : Effect) : (s.sch due e).presets = s.presets := rfl
@[simp] theorem sch_tideHeld (due : Nat) (e : Effect) : (s.sch due e).tideHeld = s.tideHeld := rfl
@[simp] theorem sch_linkN (due : Nat) (e : Effect) : (s.sch due e).linkN = s.linkN := rfl
@[simp] theorem sch_clk (due : Nat) (e : Effect) : (s.sch due e).clk = s.clk := rfl
@[simp] theorem sch_host (due : Nat) (e : Effect) : (s.sch due e).host = s.host := rfl
@[simp] theorem sch_pwr (due : Nat) (e : Effect) : (s.sch due e).pwr = s.pwr := rfl
@[simp] theorem sch_ras (due : Nat) (e : Effect) : (s.sch due e).ras = s.ras := rfl
@[simp] theorem sch_boot (due : Nat) (e : Effect) : (s.sch due e).boot = s.boot := rfl
@[simp] theorem sch_sec (due : Nat) (e : Effect) : (s.sch due e).sec = s.sec := rfl
@[simp] theorem sch_mgmt (due : Nat) (e : Effect) : (s.sch due e).mgmt = s.mgmt := rfl
@[simp] theorem sch_md (due : Nat) (e : Effect) : (s.sch due e).md = s.md := rfl
@[simp] theorem sch_irq (due : Nat) (e : Effect) : (s.sch due e).irq = s.irq := rfl
@[simp] theorem sch_msixMask (due : Nat) (e : Effect) : (s.sch due e).msixMask = s.msixMask := rfl
@[simp] theorem sch_msixPend (due : Nat) (e : Effect) : (s.sch due e).msixPend = s.msixPend := rfl
@[simp] theorem sch_xfHeld (due : Nat) (e : Effect) : (s.sch due e).xfHeld = s.xfHeld := rfl
@[simp] theorem sch_slipHeld (due : Nat) (e : Effect) : (s.sch due e).slipHeld = s.slipHeld := rfl
@[simp] theorem sch_fatalHeld (due : Nat) (e : Effect) : (s.sch due e).fatalHeld = s.fatalHeld := rfl
@[simp] theorem sch_ticks (due : Nat) (e : Effect) : (s.sch due e).ticks = s.ticks := rfl
@[simp] theorem sch_pulpDone (due : Nat) (e : Effect) : (s.sch due e).pulpDone = s.pulpDone := rfl
@[simp] theorem sch_pulpLogged (due : Nat) (e : Effect) : (s.sch due e).pulpLogged = s.pulpLogged := rfl
@[simp] theorem sch_uid (due : Nat) (e : Effect) : (s.sch due e).uid = s.uid := rfl
@[simp] theorem sch_freeN (due : Nat) (e : Effect) : (s.sch due e).freeN = s.freeN := rfl
@[simp] theorem sch_regs (due : Nat) (e : Effect) : (s.sch due e).regs = s.regs := rfl
@[simp] theorem sch_latch (due : Nat) (e : Effect) : (s.sch due e).latch = s.latch := rfl
@[simp] theorem sch_sched (due : Nat) (e : Effect) : (s.sch due e).sched = s.sched ++ [(due, e)] := rfl
@[simp] theorem sch_pending (due : Nat) (e : Effect) : (s.sch due e).pending = s.pending := rfl

/-! ### State.access -/

@[simp] theorem access_cycle (a : Access) : (s.access a).cycle = s.cycle := rfl
@[simp] theorem access_tiles (a : Access) : (s.access a).tiles = s.tiles := rfl
@[simp] theorem access_mem (a : Access) : (s.access a).mem = { s.mem with acc := s.mem.acc ++ [a.stamp s.cycle] } := rfl
@[simp] theorem access_felt (a : Access) : (s.access a).felt = s.felt := rfl
@[simp] theorem access_mesh (a : Access) : (s.access a).mesh = s.mesh := rfl
@[simp] theorem access_que (a : Access) : (s.access a).que = s.que := rfl
@[simp] theorem access_pulp (a : Access) : (s.access a).pulp = s.pulp := rfl
@[simp] theorem access_slots (a : Access) : (s.access a).slots = s.slots := rfl
@[simp] theorem access_log (a : Access) : (s.access a).log = s.log := rfl
@[simp] theorem access_red (a : Access) : (s.access a).red = s.red := rfl
@[simp] theorem access_ports (a : Access) : (s.access a).ports = s.ports := rfl
@[simp] theorem access_presets (a : Access) : (s.access a).presets = s.presets := rfl
@[simp] theorem access_tideHeld (a : Access) : (s.access a).tideHeld = s.tideHeld := rfl
@[simp] theorem access_linkN (a : Access) : (s.access a).linkN = s.linkN := rfl
@[simp] theorem access_clk (a : Access) : (s.access a).clk = s.clk := rfl
@[simp] theorem access_host (a : Access) : (s.access a).host = s.host := rfl
@[simp] theorem access_pwr (a : Access) : (s.access a).pwr = s.pwr := rfl
@[simp] theorem access_ras (a : Access) : (s.access a).ras = s.ras := rfl
@[simp] theorem access_boot (a : Access) : (s.access a).boot = s.boot := rfl
@[simp] theorem access_sec (a : Access) : (s.access a).sec = s.sec := rfl
@[simp] theorem access_mgmt (a : Access) : (s.access a).mgmt = s.mgmt := rfl
@[simp] theorem access_md (a : Access) : (s.access a).md = s.md := rfl
@[simp] theorem access_irq (a : Access) : (s.access a).irq = s.irq := rfl
@[simp] theorem access_msixMask (a : Access) : (s.access a).msixMask = s.msixMask := rfl
@[simp] theorem access_msixPend (a : Access) : (s.access a).msixPend = s.msixPend := rfl
@[simp] theorem access_xfHeld (a : Access) : (s.access a).xfHeld = s.xfHeld := rfl
@[simp] theorem access_slipHeld (a : Access) : (s.access a).slipHeld = s.slipHeld := rfl
@[simp] theorem access_fatalHeld (a : Access) : (s.access a).fatalHeld = s.fatalHeld := rfl
@[simp] theorem access_ticks (a : Access) : (s.access a).ticks = s.ticks := rfl
@[simp] theorem access_pulpDone (a : Access) : (s.access a).pulpDone = s.pulpDone := rfl
@[simp] theorem access_pulpLogged (a : Access) : (s.access a).pulpLogged = s.pulpLogged := rfl
@[simp] theorem access_uid (a : Access) : (s.access a).uid = s.uid := rfl
@[simp] theorem access_freeN (a : Access) : (s.access a).freeN = s.freeN := rfl
@[simp] theorem access_regs (a : Access) : (s.access a).regs = s.regs := rfl
@[simp] theorem access_latch (a : Access) : (s.access a).latch = s.latch := rfl
@[simp] theorem access_sched (a : Access) : (s.access a).sched = s.sched := rfl
@[simp] theorem access_pending (a : Access) : (s.access a).pending = s.pending := rfl

/-! ### State.tsPut -/

@[simp] theorem tsPut_cycle (t a : Nat) (b : Bytes) : (s.tsPut t a b).cycle = s.cycle := rfl
@[simp] theorem tsPut_tiles (t a : Nat) (b : Bytes) : (s.tsPut t a b).tiles = s.tiles := rfl
@[simp] theorem tsPut_mem (t a : Nat) (b : Bytes) : (s.tsPut t a b).mem = { s.mem with ts := mwrite s.mem.ts (t * tsSize + a) b } := rfl
@[simp] theorem tsPut_felt (t a : Nat) (b : Bytes) : (s.tsPut t a b).felt = s.felt := rfl
@[simp] theorem tsPut_mesh (t a : Nat) (b : Bytes) : (s.tsPut t a b).mesh = s.mesh := rfl
@[simp] theorem tsPut_que (t a : Nat) (b : Bytes) : (s.tsPut t a b).que = s.que := rfl
@[simp] theorem tsPut_pulp (t a : Nat) (b : Bytes) : (s.tsPut t a b).pulp = s.pulp := rfl
@[simp] theorem tsPut_slots (t a : Nat) (b : Bytes) : (s.tsPut t a b).slots = s.slots := rfl
@[simp] theorem tsPut_log (t a : Nat) (b : Bytes) : (s.tsPut t a b).log = s.log := rfl
@[simp] theorem tsPut_red (t a : Nat) (b : Bytes) : (s.tsPut t a b).red = s.red := rfl
@[simp] theorem tsPut_ports (t a : Nat) (b : Bytes) : (s.tsPut t a b).ports = s.ports := rfl
@[simp] theorem tsPut_presets (t a : Nat) (b : Bytes) : (s.tsPut t a b).presets = s.presets := rfl
@[simp] theorem tsPut_tideHeld (t a : Nat) (b : Bytes) : (s.tsPut t a b).tideHeld = s.tideHeld := rfl
@[simp] theorem tsPut_linkN (t a : Nat) (b : Bytes) : (s.tsPut t a b).linkN = s.linkN := rfl
@[simp] theorem tsPut_clk (t a : Nat) (b : Bytes) : (s.tsPut t a b).clk = s.clk := rfl
@[simp] theorem tsPut_host (t a : Nat) (b : Bytes) : (s.tsPut t a b).host = s.host := rfl
@[simp] theorem tsPut_pwr (t a : Nat) (b : Bytes) : (s.tsPut t a b).pwr = s.pwr := rfl
@[simp] theorem tsPut_ras (t a : Nat) (b : Bytes) : (s.tsPut t a b).ras = s.ras := rfl
@[simp] theorem tsPut_boot (t a : Nat) (b : Bytes) : (s.tsPut t a b).boot = s.boot := rfl
@[simp] theorem tsPut_sec (t a : Nat) (b : Bytes) : (s.tsPut t a b).sec = s.sec := rfl
@[simp] theorem tsPut_mgmt (t a : Nat) (b : Bytes) : (s.tsPut t a b).mgmt = s.mgmt := rfl
@[simp] theorem tsPut_md (t a : Nat) (b : Bytes) : (s.tsPut t a b).md = s.md := rfl
@[simp] theorem tsPut_irq (t a : Nat) (b : Bytes) : (s.tsPut t a b).irq = s.irq := rfl
@[simp] theorem tsPut_msixMask (t a : Nat) (b : Bytes) : (s.tsPut t a b).msixMask = s.msixMask := rfl
@[simp] theorem tsPut_msixPend (t a : Nat) (b : Bytes) : (s.tsPut t a b).msixPend = s.msixPend := rfl
@[simp] theorem tsPut_xfHeld (t a : Nat) (b : Bytes) : (s.tsPut t a b).xfHeld = s.xfHeld := rfl
@[simp] theorem tsPut_slipHeld (t a : Nat) (b : Bytes) : (s.tsPut t a b).slipHeld = s.slipHeld := rfl
@[simp] theorem tsPut_fatalHeld (t a : Nat) (b : Bytes) : (s.tsPut t a b).fatalHeld = s.fatalHeld := rfl
@[simp] theorem tsPut_ticks (t a : Nat) (b : Bytes) : (s.tsPut t a b).ticks = s.ticks := rfl
@[simp] theorem tsPut_pulpDone (t a : Nat) (b : Bytes) : (s.tsPut t a b).pulpDone = s.pulpDone := rfl
@[simp] theorem tsPut_pulpLogged (t a : Nat) (b : Bytes) : (s.tsPut t a b).pulpLogged = s.pulpLogged := rfl
@[simp] theorem tsPut_uid (t a : Nat) (b : Bytes) : (s.tsPut t a b).uid = s.uid := rfl
@[simp] theorem tsPut_freeN (t a : Nat) (b : Bytes) : (s.tsPut t a b).freeN = s.freeN := rfl
@[simp] theorem tsPut_regs (t a : Nat) (b : Bytes) : (s.tsPut t a b).regs = s.regs := rfl
@[simp] theorem tsPut_latch (t a : Nat) (b : Bytes) : (s.tsPut t a b).latch = s.latch := rfl
@[simp] theorem tsPut_sched (t a : Nat) (b : Bytes) : (s.tsPut t a b).sched = s.sched := rfl
@[simp] theorem tsPut_pending (t a : Nat) (b : Bytes) : (s.tsPut t a b).pending = s.pending := rfl

/-! ### State.setSheet -/

@[simp] theorem setSheet_cycle (t n : Nat) (x : SheetSt) : (s.setSheet t n x).cycle = s.cycle := rfl
@[simp] theorem setSheet_tiles (t n : Nat) (x : SheetSt) : (s.setSheet t n x).tiles = s.tiles := rfl
@[simp] theorem setSheet_mem (t n : Nat) (x : SheetSt) : (s.setSheet t n x).mem = { s.mem with sheets := tset {} s.mem.sheets (t * 768 + n) x, ecc := tset 0 s.mem.ecc (0x10 * 2 ^ 48 + (t * 768 + n)) 0 } := rfl
@[simp] theorem setSheet_felt (t n : Nat) (x : SheetSt) : (s.setSheet t n x).felt = s.felt := rfl
@[simp] theorem setSheet_mesh (t n : Nat) (x : SheetSt) : (s.setSheet t n x).mesh = s.mesh := rfl
@[simp] theorem setSheet_que (t n : Nat) (x : SheetSt) : (s.setSheet t n x).que = s.que := rfl
@[simp] theorem setSheet_pulp (t n : Nat) (x : SheetSt) : (s.setSheet t n x).pulp = s.pulp := rfl
@[simp] theorem setSheet_slots (t n : Nat) (x : SheetSt) : (s.setSheet t n x).slots = s.slots := rfl
@[simp] theorem setSheet_log (t n : Nat) (x : SheetSt) : (s.setSheet t n x).log = s.log := rfl
@[simp] theorem setSheet_red (t n : Nat) (x : SheetSt) : (s.setSheet t n x).red = s.red := rfl
@[simp] theorem setSheet_ports (t n : Nat) (x : SheetSt) : (s.setSheet t n x).ports = s.ports := rfl
@[simp] theorem setSheet_presets (t n : Nat) (x : SheetSt) : (s.setSheet t n x).presets = s.presets := rfl
@[simp] theorem setSheet_tideHeld (t n : Nat) (x : SheetSt) : (s.setSheet t n x).tideHeld = s.tideHeld := rfl
@[simp] theorem setSheet_linkN (t n : Nat) (x : SheetSt) : (s.setSheet t n x).linkN = s.linkN := rfl
@[simp] theorem setSheet_clk (t n : Nat) (x : SheetSt) : (s.setSheet t n x).clk = s.clk := rfl
@[simp] theorem setSheet_host (t n : Nat) (x : SheetSt) : (s.setSheet t n x).host = s.host := rfl
@[simp] theorem setSheet_pwr (t n : Nat) (x : SheetSt) : (s.setSheet t n x).pwr = s.pwr := rfl
@[simp] theorem setSheet_ras (t n : Nat) (x : SheetSt) : (s.setSheet t n x).ras = s.ras := rfl
@[simp] theorem setSheet_boot (t n : Nat) (x : SheetSt) : (s.setSheet t n x).boot = s.boot := rfl
@[simp] theorem setSheet_sec (t n : Nat) (x : SheetSt) : (s.setSheet t n x).sec = s.sec := rfl
@[simp] theorem setSheet_mgmt (t n : Nat) (x : SheetSt) : (s.setSheet t n x).mgmt = s.mgmt := rfl
@[simp] theorem setSheet_md (t n : Nat) (x : SheetSt) : (s.setSheet t n x).md = s.md := rfl
@[simp] theorem setSheet_irq (t n : Nat) (x : SheetSt) : (s.setSheet t n x).irq = s.irq := rfl
@[simp] theorem setSheet_msixMask (t n : Nat) (x : SheetSt) : (s.setSheet t n x).msixMask = s.msixMask := rfl
@[simp] theorem setSheet_msixPend (t n : Nat) (x : SheetSt) : (s.setSheet t n x).msixPend = s.msixPend := rfl
@[simp] theorem setSheet_xfHeld (t n : Nat) (x : SheetSt) : (s.setSheet t n x).xfHeld = s.xfHeld := rfl
@[simp] theorem setSheet_slipHeld (t n : Nat) (x : SheetSt) : (s.setSheet t n x).slipHeld = s.slipHeld := rfl
@[simp] theorem setSheet_fatalHeld (t n : Nat) (x : SheetSt) : (s.setSheet t n x).fatalHeld = s.fatalHeld := rfl
@[simp] theorem setSheet_ticks (t n : Nat) (x : SheetSt) : (s.setSheet t n x).ticks = s.ticks := rfl
@[simp] theorem setSheet_pulpDone (t n : Nat) (x : SheetSt) : (s.setSheet t n x).pulpDone = s.pulpDone := rfl
@[simp] theorem setSheet_pulpLogged (t n : Nat) (x : SheetSt) : (s.setSheet t n x).pulpLogged = s.pulpLogged := rfl
@[simp] theorem setSheet_uid (t n : Nat) (x : SheetSt) : (s.setSheet t n x).uid = s.uid := rfl
@[simp] theorem setSheet_freeN (t n : Nat) (x : SheetSt) : (s.setSheet t n x).freeN = s.freeN := rfl
@[simp] theorem setSheet_regs (t n : Nat) (x : SheetSt) : (s.setSheet t n x).regs = s.regs := rfl
@[simp] theorem setSheet_latch (t n : Nat) (x : SheetSt) : (s.setSheet t n x).latch = s.latch := rfl
@[simp] theorem setSheet_sched (t n : Nat) (x : SheetSt) : (s.setSheet t n x).sched = s.sched := rfl
@[simp] theorem setSheet_pending (t n : Nat) (x : SheetSt) : (s.setSheet t n x).pending = s.pending := rfl

/-! ### State.eccWrite -/

@[simp] theorem eccWrite_cycle (place w : Nat) : (s.eccWrite place w).cycle = s.cycle := rfl
@[simp] theorem eccWrite_tiles (place w : Nat) : (s.eccWrite place w).tiles = s.tiles := rfl
@[simp] theorem eccWrite_mem (place w : Nat) : (s.eccWrite place w).mem = { s.mem with ecc := tset 0 s.mem.ecc (eccKey place w) 0 } := rfl
@[simp] theorem eccWrite_felt (place w : Nat) : (s.eccWrite place w).felt = s.felt := rfl
@[simp] theorem eccWrite_mesh (place w : Nat) : (s.eccWrite place w).mesh = s.mesh := rfl
@[simp] theorem eccWrite_que (place w : Nat) : (s.eccWrite place w).que = s.que := rfl
@[simp] theorem eccWrite_pulp (place w : Nat) : (s.eccWrite place w).pulp = s.pulp := rfl
@[simp] theorem eccWrite_slots (place w : Nat) : (s.eccWrite place w).slots = s.slots := rfl
@[simp] theorem eccWrite_log (place w : Nat) : (s.eccWrite place w).log = s.log := rfl
@[simp] theorem eccWrite_red (place w : Nat) : (s.eccWrite place w).red = s.red := rfl
@[simp] theorem eccWrite_ports (place w : Nat) : (s.eccWrite place w).ports = s.ports := rfl
@[simp] theorem eccWrite_presets (place w : Nat) : (s.eccWrite place w).presets = s.presets := rfl
@[simp] theorem eccWrite_tideHeld (place w : Nat) : (s.eccWrite place w).tideHeld = s.tideHeld := rfl
@[simp] theorem eccWrite_linkN (place w : Nat) : (s.eccWrite place w).linkN = s.linkN := rfl
@[simp] theorem eccWrite_clk (place w : Nat) : (s.eccWrite place w).clk = s.clk := rfl
@[simp] theorem eccWrite_host (place w : Nat) : (s.eccWrite place w).host = s.host := rfl
@[simp] theorem eccWrite_pwr (place w : Nat) : (s.eccWrite place w).pwr = s.pwr := rfl
@[simp] theorem eccWrite_ras (place w : Nat) : (s.eccWrite place w).ras = s.ras := rfl
@[simp] theorem eccWrite_boot (place w : Nat) : (s.eccWrite place w).boot = s.boot := rfl
@[simp] theorem eccWrite_sec (place w : Nat) : (s.eccWrite place w).sec = s.sec := rfl
@[simp] theorem eccWrite_mgmt (place w : Nat) : (s.eccWrite place w).mgmt = s.mgmt := rfl
@[simp] theorem eccWrite_md (place w : Nat) : (s.eccWrite place w).md = s.md := rfl
@[simp] theorem eccWrite_irq (place w : Nat) : (s.eccWrite place w).irq = s.irq := rfl
@[simp] theorem eccWrite_msixMask (place w : Nat) : (s.eccWrite place w).msixMask = s.msixMask := rfl
@[simp] theorem eccWrite_msixPend (place w : Nat) : (s.eccWrite place w).msixPend = s.msixPend := rfl
@[simp] theorem eccWrite_xfHeld (place w : Nat) : (s.eccWrite place w).xfHeld = s.xfHeld := rfl
@[simp] theorem eccWrite_slipHeld (place w : Nat) : (s.eccWrite place w).slipHeld = s.slipHeld := rfl
@[simp] theorem eccWrite_fatalHeld (place w : Nat) : (s.eccWrite place w).fatalHeld = s.fatalHeld := rfl
@[simp] theorem eccWrite_ticks (place w : Nat) : (s.eccWrite place w).ticks = s.ticks := rfl
@[simp] theorem eccWrite_pulpDone (place w : Nat) : (s.eccWrite place w).pulpDone = s.pulpDone := rfl
@[simp] theorem eccWrite_pulpLogged (place w : Nat) : (s.eccWrite place w).pulpLogged = s.pulpLogged := rfl
@[simp] theorem eccWrite_uid (place w : Nat) : (s.eccWrite place w).uid = s.uid := rfl
@[simp] theorem eccWrite_freeN (place w : Nat) : (s.eccWrite place w).freeN = s.freeN := rfl
@[simp] theorem eccWrite_regs (place w : Nat) : (s.eccWrite place w).regs = s.regs := rfl
@[simp] theorem eccWrite_latch (place w : Nat) : (s.eccWrite place w).latch = s.latch := rfl
@[simp] theorem eccWrite_sched (place w : Nat) : (s.eccWrite place w).sched = s.sched := rfl
@[simp] theorem eccWrite_pending (place w : Nat) : (s.eccWrite place w).pending = s.pending := rfl

/-! ### State.setEnts -/

@[simp] theorem setEnts_cycle (t q : Nat) (l : List QEnt) : (s.setEnts t q l).cycle = s.cycle := rfl
@[simp] theorem setEnts_tiles (t q : Nat) (l : List QEnt) : (s.setEnts t q l).tiles = s.tiles := rfl
@[simp] theorem setEnts_mem (t q : Nat) (l : List QEnt) : (s.setEnts t q l).mem = s.mem := rfl
@[simp] theorem setEnts_felt (t q : Nat) (l : List QEnt) : (s.setEnts t q l).felt = s.felt := rfl
@[simp] theorem setEnts_mesh (t q : Nat) (l : List QEnt) : (s.setEnts t q l).mesh = s.mesh := rfl
@[simp] theorem setEnts_que (t q : Nat) (l : List QEnt) : (s.setEnts t q l).que = { s.que with q := tset [] s.que.q (t * 8 + q) l } := rfl
@[simp] theorem setEnts_pulp (t q : Nat) (l : List QEnt) : (s.setEnts t q l).pulp = s.pulp := rfl
@[simp] theorem setEnts_slots (t q : Nat) (l : List QEnt) : (s.setEnts t q l).slots = s.slots := rfl
@[simp] theorem setEnts_log (t q : Nat) (l : List QEnt) : (s.setEnts t q l).log = s.log := rfl
@[simp] theorem setEnts_red (t q : Nat) (l : List QEnt) : (s.setEnts t q l).red = s.red := rfl
@[simp] theorem setEnts_ports (t q : Nat) (l : List QEnt) : (s.setEnts t q l).ports = s.ports := rfl
@[simp] theorem setEnts_presets (t q : Nat) (l : List QEnt) : (s.setEnts t q l).presets = s.presets := rfl
@[simp] theorem setEnts_tideHeld (t q : Nat) (l : List QEnt) : (s.setEnts t q l).tideHeld = s.tideHeld := rfl
@[simp] theorem setEnts_linkN (t q : Nat) (l : List QEnt) : (s.setEnts t q l).linkN = s.linkN := rfl
@[simp] theorem setEnts_clk (t q : Nat) (l : List QEnt) : (s.setEnts t q l).clk = s.clk := rfl
@[simp] theorem setEnts_host (t q : Nat) (l : List QEnt) : (s.setEnts t q l).host = s.host := rfl
@[simp] theorem setEnts_pwr (t q : Nat) (l : List QEnt) : (s.setEnts t q l).pwr = s.pwr := rfl
@[simp] theorem setEnts_ras (t q : Nat) (l : List QEnt) : (s.setEnts t q l).ras = s.ras := rfl
@[simp] theorem setEnts_boot (t q : Nat) (l : List QEnt) : (s.setEnts t q l).boot = s.boot := rfl
@[simp] theorem setEnts_sec (t q : Nat) (l : List QEnt) : (s.setEnts t q l).sec = s.sec := rfl
@[simp] theorem setEnts_mgmt (t q : Nat) (l : List QEnt) : (s.setEnts t q l).mgmt = s.mgmt := rfl
@[simp] theorem setEnts_md (t q : Nat) (l : List QEnt) : (s.setEnts t q l).md = s.md := rfl
@[simp] theorem setEnts_irq (t q : Nat) (l : List QEnt) : (s.setEnts t q l).irq = s.irq := rfl
@[simp] theorem setEnts_msixMask (t q : Nat) (l : List QEnt) : (s.setEnts t q l).msixMask = s.msixMask := rfl
@[simp] theorem setEnts_msixPend (t q : Nat) (l : List QEnt) : (s.setEnts t q l).msixPend = s.msixPend := rfl
@[simp] theorem setEnts_xfHeld (t q : Nat) (l : List QEnt) : (s.setEnts t q l).xfHeld = s.xfHeld := rfl
@[simp] theorem setEnts_slipHeld (t q : Nat) (l : List QEnt) : (s.setEnts t q l).slipHeld = s.slipHeld := rfl
@[simp] theorem setEnts_fatalHeld (t q : Nat) (l : List QEnt) : (s.setEnts t q l).fatalHeld = s.fatalHeld := rfl
@[simp] theorem setEnts_ticks (t q : Nat) (l : List QEnt) : (s.setEnts t q l).ticks = s.ticks := rfl
@[simp] theorem setEnts_pulpDone (t q : Nat) (l : List QEnt) : (s.setEnts t q l).pulpDone = s.pulpDone := rfl
@[simp] theorem setEnts_pulpLogged (t q : Nat) (l : List QEnt) : (s.setEnts t q l).pulpLogged = s.pulpLogged := rfl
@[simp] theorem setEnts_uid (t q : Nat) (l : List QEnt) : (s.setEnts t q l).uid = s.uid := rfl
@[simp] theorem setEnts_freeN (t q : Nat) (l : List QEnt) : (s.setEnts t q l).freeN = s.freeN := rfl
@[simp] theorem setEnts_regs (t q : Nat) (l : List QEnt) : (s.setEnts t q l).regs = s.regs := rfl
@[simp] theorem setEnts_latch (t q : Nat) (l : List QEnt) : (s.setEnts t q l).latch = s.latch := rfl
@[simp] theorem setEnts_sched (t q : Nat) (l : List QEnt) : (s.setEnts t q l).sched = s.sched := rfl
@[simp] theorem setEnts_pending (t q : Nat) (l : List QEnt) : (s.setEnts t q l).pending = s.pending := rfl

/-! ### State.setTag -/

@[simp] theorem setTag_cycle (t k : Nat) (x : TagSt) : (s.setTag t k x).cycle = s.cycle := rfl
@[simp] theorem setTag_tiles (t k : Nat) (x : TagSt) : (s.setTag t k x).tiles = s.tiles := rfl
@[simp] theorem setTag_mem (t k : Nat) (x : TagSt) : (s.setTag t k x).mem = s.mem := rfl
@[simp] theorem setTag_felt (t k : Nat) (x : TagSt) : (s.setTag t k x).felt = s.felt := rfl
@[simp] theorem setTag_mesh (t k : Nat) (x : TagSt) : (s.setTag t k x).mesh = s.mesh := rfl
@[simp] theorem setTag_que (t k : Nat) (x : TagSt) : (s.setTag t k x).que = { s.que with tags := tset {} s.que.tags (t * 64 + k) x } := rfl
@[simp] theorem setTag_pulp (t k : Nat) (x : TagSt) : (s.setTag t k x).pulp = s.pulp := rfl
@[simp] theorem setTag_slots (t k : Nat) (x : TagSt) : (s.setTag t k x).slots = s.slots := rfl
@[simp] theorem setTag_log (t k : Nat) (x : TagSt) : (s.setTag t k x).log = s.log := rfl
@[simp] theorem setTag_red (t k : Nat) (x : TagSt) : (s.setTag t k x).red = s.red := rfl
@[simp] theorem setTag_ports (t k : Nat) (x : TagSt) : (s.setTag t k x).ports = s.ports := rfl
@[simp] theorem setTag_presets (t k : Nat) (x : TagSt) : (s.setTag t k x).presets = s.presets := rfl
@[simp] theorem setTag_tideHeld (t k : Nat) (x : TagSt) : (s.setTag t k x).tideHeld = s.tideHeld := rfl
@[simp] theorem setTag_linkN (t k : Nat) (x : TagSt) : (s.setTag t k x).linkN = s.linkN := rfl
@[simp] theorem setTag_clk (t k : Nat) (x : TagSt) : (s.setTag t k x).clk = s.clk := rfl
@[simp] theorem setTag_host (t k : Nat) (x : TagSt) : (s.setTag t k x).host = s.host := rfl
@[simp] theorem setTag_pwr (t k : Nat) (x : TagSt) : (s.setTag t k x).pwr = s.pwr := rfl
@[simp] theorem setTag_ras (t k : Nat) (x : TagSt) : (s.setTag t k x).ras = s.ras := rfl
@[simp] theorem setTag_boot (t k : Nat) (x : TagSt) : (s.setTag t k x).boot = s.boot := rfl
@[simp] theorem setTag_sec (t k : Nat) (x : TagSt) : (s.setTag t k x).sec = s.sec := rfl
@[simp] theorem setTag_mgmt (t k : Nat) (x : TagSt) : (s.setTag t k x).mgmt = s.mgmt := rfl
@[simp] theorem setTag_md (t k : Nat) (x : TagSt) : (s.setTag t k x).md = s.md := rfl
@[simp] theorem setTag_irq (t k : Nat) (x : TagSt) : (s.setTag t k x).irq = s.irq := rfl
@[simp] theorem setTag_msixMask (t k : Nat) (x : TagSt) : (s.setTag t k x).msixMask = s.msixMask := rfl
@[simp] theorem setTag_msixPend (t k : Nat) (x : TagSt) : (s.setTag t k x).msixPend = s.msixPend := rfl
@[simp] theorem setTag_xfHeld (t k : Nat) (x : TagSt) : (s.setTag t k x).xfHeld = s.xfHeld := rfl
@[simp] theorem setTag_slipHeld (t k : Nat) (x : TagSt) : (s.setTag t k x).slipHeld = s.slipHeld := rfl
@[simp] theorem setTag_fatalHeld (t k : Nat) (x : TagSt) : (s.setTag t k x).fatalHeld = s.fatalHeld := rfl
@[simp] theorem setTag_ticks (t k : Nat) (x : TagSt) : (s.setTag t k x).ticks = s.ticks := rfl
@[simp] theorem setTag_pulpDone (t k : Nat) (x : TagSt) : (s.setTag t k x).pulpDone = s.pulpDone := rfl
@[simp] theorem setTag_pulpLogged (t k : Nat) (x : TagSt) : (s.setTag t k x).pulpLogged = s.pulpLogged := rfl
@[simp] theorem setTag_uid (t k : Nat) (x : TagSt) : (s.setTag t k x).uid = s.uid := rfl
@[simp] theorem setTag_freeN (t k : Nat) (x : TagSt) : (s.setTag t k x).freeN = s.freeN := rfl
@[simp] theorem setTag_regs (t k : Nat) (x : TagSt) : (s.setTag t k x).regs = s.regs := rfl
@[simp] theorem setTag_latch (t k : Nat) (x : TagSt) : (s.setTag t k x).latch = s.latch := rfl
@[simp] theorem setTag_sched (t k : Nat) (x : TagSt) : (s.setTag t k x).sched = s.sched := rfl
@[simp] theorem setTag_pending (t k : Nat) (x : TagSt) : (s.setTag t k x).pending = s.pending := rfl

/-! ### State.setDep -/

@[simp] theorem setDep_cycle (t : Nat) (l : List DepWrite) : (s.setDep t l).cycle = s.cycle := rfl
@[simp] theorem setDep_tiles (t : Nat) (l : List DepWrite) : (s.setDep t l).tiles = s.tiles := rfl
@[simp] theorem setDep_mem (t : Nat) (l : List DepWrite) : (s.setDep t l).mem = s.mem := rfl
@[simp] theorem setDep_felt (t : Nat) (l : List DepWrite) : (s.setDep t l).felt = s.felt := rfl
@[simp] theorem setDep_mesh (t : Nat) (l : List DepWrite) : (s.setDep t l).mesh = { s.mesh with deposit := tset [] s.mesh.deposit t l } := rfl
@[simp] theorem setDep_que (t : Nat) (l : List DepWrite) : (s.setDep t l).que = s.que := rfl
@[simp] theorem setDep_pulp (t : Nat) (l : List DepWrite) : (s.setDep t l).pulp = s.pulp := rfl
@[simp] theorem setDep_slots (t : Nat) (l : List DepWrite) : (s.setDep t l).slots = s.slots := rfl
@[simp] theorem setDep_log (t : Nat) (l : List DepWrite) : (s.setDep t l).log = s.log := rfl
@[simp] theorem setDep_red (t : Nat) (l : List DepWrite) : (s.setDep t l).red = s.red := rfl
@[simp] theorem setDep_ports (t : Nat) (l : List DepWrite) : (s.setDep t l).ports = s.ports := rfl
@[simp] theorem setDep_presets (t : Nat) (l : List DepWrite) : (s.setDep t l).presets = s.presets := rfl
@[simp] theorem setDep_tideHeld (t : Nat) (l : List DepWrite) : (s.setDep t l).tideHeld = s.tideHeld := rfl
@[simp] theorem setDep_linkN (t : Nat) (l : List DepWrite) : (s.setDep t l).linkN = s.linkN := rfl
@[simp] theorem setDep_clk (t : Nat) (l : List DepWrite) : (s.setDep t l).clk = s.clk := rfl
@[simp] theorem setDep_host (t : Nat) (l : List DepWrite) : (s.setDep t l).host = s.host := rfl
@[simp] theorem setDep_pwr (t : Nat) (l : List DepWrite) : (s.setDep t l).pwr = s.pwr := rfl
@[simp] theorem setDep_ras (t : Nat) (l : List DepWrite) : (s.setDep t l).ras = s.ras := rfl
@[simp] theorem setDep_boot (t : Nat) (l : List DepWrite) : (s.setDep t l).boot = s.boot := rfl
@[simp] theorem setDep_sec (t : Nat) (l : List DepWrite) : (s.setDep t l).sec = s.sec := rfl
@[simp] theorem setDep_mgmt (t : Nat) (l : List DepWrite) : (s.setDep t l).mgmt = s.mgmt := rfl
@[simp] theorem setDep_md (t : Nat) (l : List DepWrite) : (s.setDep t l).md = s.md := rfl
@[simp] theorem setDep_irq (t : Nat) (l : List DepWrite) : (s.setDep t l).irq = s.irq := rfl
@[simp] theorem setDep_msixMask (t : Nat) (l : List DepWrite) : (s.setDep t l).msixMask = s.msixMask := rfl
@[simp] theorem setDep_msixPend (t : Nat) (l : List DepWrite) : (s.setDep t l).msixPend = s.msixPend := rfl
@[simp] theorem setDep_xfHeld (t : Nat) (l : List DepWrite) : (s.setDep t l).xfHeld = s.xfHeld := rfl
@[simp] theorem setDep_slipHeld (t : Nat) (l : List DepWrite) : (s.setDep t l).slipHeld = s.slipHeld := rfl
@[simp] theorem setDep_fatalHeld (t : Nat) (l : List DepWrite) : (s.setDep t l).fatalHeld = s.fatalHeld := rfl
@[simp] theorem setDep_ticks (t : Nat) (l : List DepWrite) : (s.setDep t l).ticks = s.ticks := rfl
@[simp] theorem setDep_pulpDone (t : Nat) (l : List DepWrite) : (s.setDep t l).pulpDone = s.pulpDone := rfl
@[simp] theorem setDep_pulpLogged (t : Nat) (l : List DepWrite) : (s.setDep t l).pulpLogged = s.pulpLogged := rfl
@[simp] theorem setDep_uid (t : Nat) (l : List DepWrite) : (s.setDep t l).uid = s.uid := rfl
@[simp] theorem setDep_freeN (t : Nat) (l : List DepWrite) : (s.setDep t l).freeN = s.freeN := rfl
@[simp] theorem setDep_regs (t : Nat) (l : List DepWrite) : (s.setDep t l).regs = s.regs := rfl
@[simp] theorem setDep_latch (t : Nat) (l : List DepWrite) : (s.setDep t l).latch = s.latch := rfl
@[simp] theorem setDep_sched (t : Nat) (l : List DepWrite) : (s.setDep t l).sched = s.sched := rfl
@[simp] theorem setDep_pending (t : Nat) (l : List DepWrite) : (s.setDep t l).pending = s.pending := rfl

/-! ### State.setVb -/

@[simp] theorem setVb_cycle (t port : Nat) (vc3 : Bool) (l : List VFlit) : (s.setVb t port vc3 l).cycle = s.cycle := rfl
@[simp] theorem setVb_tiles (t port : Nat) (vc3 : Bool) (l : List VFlit) : (s.setVb t port vc3 l).tiles = s.tiles := rfl
@[simp] theorem setVb_mem (t port : Nat) (vc3 : Bool) (l : List VFlit) : (s.setVb t port vc3 l).mem = s.mem := rfl
@[simp] theorem setVb_felt (t port : Nat) (vc3 : Bool) (l : List VFlit) : (s.setVb t port vc3 l).felt = s.felt := rfl
@[simp] theorem setVb_mesh (t port : Nat) (vc3 : Bool) (l : List VFlit) : (s.setVb t port vc3 l).mesh = { s.mesh with vbuf := tset [] s.mesh.vbuf (vKey t port vc3) l } := rfl
@[simp] theorem setVb_que (t port : Nat) (vc3 : Bool) (l : List VFlit) : (s.setVb t port vc3 l).que = s.que := rfl
@[simp] theorem setVb_pulp (t port : Nat) (vc3 : Bool) (l : List VFlit) : (s.setVb t port vc3 l).pulp = s.pulp := rfl
@[simp] theorem setVb_slots (t port : Nat) (vc3 : Bool) (l : List VFlit) : (s.setVb t port vc3 l).slots = s.slots := rfl
@[simp] theorem setVb_log (t port : Nat) (vc3 : Bool) (l : List VFlit) : (s.setVb t port vc3 l).log = s.log := rfl
@[simp] theorem setVb_red (t port : Nat) (vc3 : Bool) (l : List VFlit) : (s.setVb t port vc3 l).red = s.red := rfl
@[simp] theorem setVb_ports (t port : Nat) (vc3 : Bool) (l : List VFlit) : (s.setVb t port vc3 l).ports = s.ports := rfl
@[simp] theorem setVb_presets (t port : Nat) (vc3 : Bool) (l : List VFlit) : (s.setVb t port vc3 l).presets = s.presets := rfl
@[simp] theorem setVb_tideHeld (t port : Nat) (vc3 : Bool) (l : List VFlit) : (s.setVb t port vc3 l).tideHeld = s.tideHeld := rfl
@[simp] theorem setVb_linkN (t port : Nat) (vc3 : Bool) (l : List VFlit) : (s.setVb t port vc3 l).linkN = s.linkN := rfl
@[simp] theorem setVb_clk (t port : Nat) (vc3 : Bool) (l : List VFlit) : (s.setVb t port vc3 l).clk = s.clk := rfl
@[simp] theorem setVb_host (t port : Nat) (vc3 : Bool) (l : List VFlit) : (s.setVb t port vc3 l).host = s.host := rfl
@[simp] theorem setVb_pwr (t port : Nat) (vc3 : Bool) (l : List VFlit) : (s.setVb t port vc3 l).pwr = s.pwr := rfl
@[simp] theorem setVb_ras (t port : Nat) (vc3 : Bool) (l : List VFlit) : (s.setVb t port vc3 l).ras = s.ras := rfl
@[simp] theorem setVb_boot (t port : Nat) (vc3 : Bool) (l : List VFlit) : (s.setVb t port vc3 l).boot = s.boot := rfl
@[simp] theorem setVb_sec (t port : Nat) (vc3 : Bool) (l : List VFlit) : (s.setVb t port vc3 l).sec = s.sec := rfl
@[simp] theorem setVb_mgmt (t port : Nat) (vc3 : Bool) (l : List VFlit) : (s.setVb t port vc3 l).mgmt = s.mgmt := rfl
@[simp] theorem setVb_md (t port : Nat) (vc3 : Bool) (l : List VFlit) : (s.setVb t port vc3 l).md = s.md := rfl
@[simp] theorem setVb_irq (t port : Nat) (vc3 : Bool) (l : List VFlit) : (s.setVb t port vc3 l).irq = s.irq := rfl
@[simp] theorem setVb_msixMask (t port : Nat) (vc3 : Bool) (l : List VFlit) : (s.setVb t port vc3 l).msixMask = s.msixMask := rfl
@[simp] theorem setVb_msixPend (t port : Nat) (vc3 : Bool) (l : List VFlit) : (s.setVb t port vc3 l).msixPend = s.msixPend := rfl
@[simp] theorem setVb_xfHeld (t port : Nat) (vc3 : Bool) (l : List VFlit) : (s.setVb t port vc3 l).xfHeld = s.xfHeld := rfl
@[simp] theorem setVb_slipHeld (t port : Nat) (vc3 : Bool) (l : List VFlit) : (s.setVb t port vc3 l).slipHeld = s.slipHeld := rfl
@[simp] theorem setVb_fatalHeld (t port : Nat) (vc3 : Bool) (l : List VFlit) : (s.setVb t port vc3 l).fatalHeld = s.fatalHeld := rfl
@[simp] theorem setVb_ticks (t port : Nat) (vc3 : Bool) (l : List VFlit) : (s.setVb t port vc3 l).ticks = s.ticks := rfl
@[simp] theorem setVb_pulpDone (t port : Nat) (vc3 : Bool) (l : List VFlit) : (s.setVb t port vc3 l).pulpDone = s.pulpDone := rfl
@[simp] theorem setVb_pulpLogged (t port : Nat) (vc3 : Bool) (l : List VFlit) : (s.setVb t port vc3 l).pulpLogged = s.pulpLogged := rfl
@[simp] theorem setVb_uid (t port : Nat) (vc3 : Bool) (l : List VFlit) : (s.setVb t port vc3 l).uid = s.uid := rfl
@[simp] theorem setVb_freeN (t port : Nat) (vc3 : Bool) (l : List VFlit) : (s.setVb t port vc3 l).freeN = s.freeN := rfl
@[simp] theorem setVb_regs (t port : Nat) (vc3 : Bool) (l : List VFlit) : (s.setVb t port vc3 l).regs = s.regs := rfl
@[simp] theorem setVb_latch (t port : Nat) (vc3 : Bool) (l : List VFlit) : (s.setVb t port vc3 l).latch = s.latch := rfl
@[simp] theorem setVb_sched (t port : Nat) (vc3 : Bool) (l : List VFlit) : (s.setVb t port vc3 l).sched = s.sched := rfl
@[simp] theorem setVb_pending (t port : Nat) (vc3 : Bool) (l : List VFlit) : (s.setVb t port vc3 l).pending = s.pending := rfl

/-! ### State.setCtx -/

@[simp] theorem setCtx_cycle (r k : Nat) (x : RCtx) : (s.setCtx r k x).cycle = s.cycle := rfl
@[simp] theorem setCtx_tiles (r k : Nat) (x : RCtx) : (s.setCtx r k x).tiles = s.tiles := rfl
@[simp] theorem setCtx_mem (r k : Nat) (x : RCtx) : (s.setCtx r k x).mem = s.mem := rfl
@[simp] theorem setCtx_felt (r k : Nat) (x : RCtx) : (s.setCtx r k x).felt = s.felt := rfl
@[simp] theorem setCtx_mesh (r k : Nat) (x : RCtx) : (s.setCtx r k x).mesh = { s.mesh with rctx := tset {} s.mesh.rctx (r * 8 + k) x } := rfl
@[simp] theorem setCtx_que (r k : Nat) (x : RCtx) : (s.setCtx r k x).que = s.que := rfl
@[simp] theorem setCtx_pulp (r k : Nat) (x : RCtx) : (s.setCtx r k x).pulp = s.pulp := rfl
@[simp] theorem setCtx_slots (r k : Nat) (x : RCtx) : (s.setCtx r k x).slots = s.slots := rfl
@[simp] theorem setCtx_log (r k : Nat) (x : RCtx) : (s.setCtx r k x).log = s.log := rfl
@[simp] theorem setCtx_red (r k : Nat) (x : RCtx) : (s.setCtx r k x).red = s.red := rfl
@[simp] theorem setCtx_ports (r k : Nat) (x : RCtx) : (s.setCtx r k x).ports = s.ports := rfl
@[simp] theorem setCtx_presets (r k : Nat) (x : RCtx) : (s.setCtx r k x).presets = s.presets := rfl
@[simp] theorem setCtx_tideHeld (r k : Nat) (x : RCtx) : (s.setCtx r k x).tideHeld = s.tideHeld := rfl
@[simp] theorem setCtx_linkN (r k : Nat) (x : RCtx) : (s.setCtx r k x).linkN = s.linkN := rfl
@[simp] theorem setCtx_clk (r k : Nat) (x : RCtx) : (s.setCtx r k x).clk = s.clk := rfl
@[simp] theorem setCtx_host (r k : Nat) (x : RCtx) : (s.setCtx r k x).host = s.host := rfl
@[simp] theorem setCtx_pwr (r k : Nat) (x : RCtx) : (s.setCtx r k x).pwr = s.pwr := rfl
@[simp] theorem setCtx_ras (r k : Nat) (x : RCtx) : (s.setCtx r k x).ras = s.ras := rfl
@[simp] theorem setCtx_boot (r k : Nat) (x : RCtx) : (s.setCtx r k x).boot = s.boot := rfl
@[simp] theorem setCtx_sec (r k : Nat) (x : RCtx) : (s.setCtx r k x).sec = s.sec := rfl
@[simp] theorem setCtx_mgmt (r k : Nat) (x : RCtx) : (s.setCtx r k x).mgmt = s.mgmt := rfl
@[simp] theorem setCtx_md (r k : Nat) (x : RCtx) : (s.setCtx r k x).md = s.md := rfl
@[simp] theorem setCtx_irq (r k : Nat) (x : RCtx) : (s.setCtx r k x).irq = s.irq := rfl
@[simp] theorem setCtx_msixMask (r k : Nat) (x : RCtx) : (s.setCtx r k x).msixMask = s.msixMask := rfl
@[simp] theorem setCtx_msixPend (r k : Nat) (x : RCtx) : (s.setCtx r k x).msixPend = s.msixPend := rfl
@[simp] theorem setCtx_xfHeld (r k : Nat) (x : RCtx) : (s.setCtx r k x).xfHeld = s.xfHeld := rfl
@[simp] theorem setCtx_slipHeld (r k : Nat) (x : RCtx) : (s.setCtx r k x).slipHeld = s.slipHeld := rfl
@[simp] theorem setCtx_fatalHeld (r k : Nat) (x : RCtx) : (s.setCtx r k x).fatalHeld = s.fatalHeld := rfl
@[simp] theorem setCtx_ticks (r k : Nat) (x : RCtx) : (s.setCtx r k x).ticks = s.ticks := rfl
@[simp] theorem setCtx_pulpDone (r k : Nat) (x : RCtx) : (s.setCtx r k x).pulpDone = s.pulpDone := rfl
@[simp] theorem setCtx_pulpLogged (r k : Nat) (x : RCtx) : (s.setCtx r k x).pulpLogged = s.pulpLogged := rfl
@[simp] theorem setCtx_uid (r k : Nat) (x : RCtx) : (s.setCtx r k x).uid = s.uid := rfl
@[simp] theorem setCtx_freeN (r k : Nat) (x : RCtx) : (s.setCtx r k x).freeN = s.freeN := rfl
@[simp] theorem setCtx_regs (r k : Nat) (x : RCtx) : (s.setCtx r k x).regs = s.regs := rfl
@[simp] theorem setCtx_latch (r k : Nat) (x : RCtx) : (s.setCtx r k x).latch = s.latch := rfl
@[simp] theorem setCtx_sched (r k : Nat) (x : RCtx) : (s.setCtx r k x).sched = s.sched := rfl
@[simp] theorem setCtx_pending (r k : Nat) (x : RCtx) : (s.setCtx r k x).pending = s.pending := rfl

/-! ### State.addFlit -/

@[simp] theorem addFlit_cycle (f : Flit) : (s.addFlit f).cycle = s.cycle := rfl
@[simp] theorem addFlit_tiles (f : Flit) : (s.addFlit f).tiles = s.tiles := rfl
@[simp] theorem addFlit_mem (f : Flit) : (s.addFlit f).mem = s.mem := rfl
@[simp] theorem addFlit_felt (f : Flit) : (s.addFlit f).felt = s.felt := rfl
@[simp] theorem addFlit_mesh (f : Flit) : (s.addFlit f).mesh = { s.mesh with flits := s.mesh.flits ++ [f] } := rfl
@[simp] theorem addFlit_que (f : Flit) : (s.addFlit f).que = s.que := rfl
@[simp] theorem addFlit_pulp (f : Flit) : (s.addFlit f).pulp = s.pulp := rfl
@[simp] theorem addFlit_slots (f : Flit) : (s.addFlit f).slots = s.slots := rfl
@[simp] theorem addFlit_log (f : Flit) : (s.addFlit f).log = s.log := rfl
@[simp] theorem addFlit_red (f : Flit) : (s.addFlit f).red = s.red := rfl
@[simp] theorem addFlit_ports (f : Flit) : (s.addFlit f).ports = s.ports := rfl
@[simp] theorem addFlit_presets (f : Flit) : (s.addFlit f).presets = s.presets := rfl
@[simp] theorem addFlit_tideHeld (f : Flit) : (s.addFlit f).tideHeld = s.tideHeld := rfl
@[simp] theorem addFlit_linkN (f : Flit) : (s.addFlit f).linkN = s.linkN := rfl
@[simp] theorem addFlit_clk (f : Flit) : (s.addFlit f).clk = s.clk := rfl
@[simp] theorem addFlit_host (f : Flit) : (s.addFlit f).host = s.host := rfl
@[simp] theorem addFlit_pwr (f : Flit) : (s.addFlit f).pwr = s.pwr := rfl
@[simp] theorem addFlit_ras (f : Flit) : (s.addFlit f).ras = s.ras := rfl
@[simp] theorem addFlit_boot (f : Flit) : (s.addFlit f).boot = s.boot := rfl
@[simp] theorem addFlit_sec (f : Flit) : (s.addFlit f).sec = s.sec := rfl
@[simp] theorem addFlit_mgmt (f : Flit) : (s.addFlit f).mgmt = s.mgmt := rfl
@[simp] theorem addFlit_md (f : Flit) : (s.addFlit f).md = s.md := rfl
@[simp] theorem addFlit_irq (f : Flit) : (s.addFlit f).irq = s.irq := rfl
@[simp] theorem addFlit_msixMask (f : Flit) : (s.addFlit f).msixMask = s.msixMask := rfl
@[simp] theorem addFlit_msixPend (f : Flit) : (s.addFlit f).msixPend = s.msixPend := rfl
@[simp] theorem addFlit_xfHeld (f : Flit) : (s.addFlit f).xfHeld = s.xfHeld := rfl
@[simp] theorem addFlit_slipHeld (f : Flit) : (s.addFlit f).slipHeld = s.slipHeld := rfl
@[simp] theorem addFlit_fatalHeld (f : Flit) : (s.addFlit f).fatalHeld = s.fatalHeld := rfl
@[simp] theorem addFlit_ticks (f : Flit) : (s.addFlit f).ticks = s.ticks := rfl
@[simp] theorem addFlit_pulpDone (f : Flit) : (s.addFlit f).pulpDone = s.pulpDone := rfl
@[simp] theorem addFlit_pulpLogged (f : Flit) : (s.addFlit f).pulpLogged = s.pulpLogged := rfl
@[simp] theorem addFlit_uid (f : Flit) : (s.addFlit f).uid = s.uid := rfl
@[simp] theorem addFlit_freeN (f : Flit) : (s.addFlit f).freeN = s.freeN := rfl
@[simp] theorem addFlit_regs (f : Flit) : (s.addFlit f).regs = s.regs := rfl
@[simp] theorem addFlit_latch (f : Flit) : (s.addFlit f).latch = s.latch := rfl
@[simp] theorem addFlit_sched (f : Flit) : (s.addFlit f).sched = s.sched := rfl
@[simp] theorem addFlit_pending (f : Flit) : (s.addFlit f).pending = s.pending := rfl

/-! ### State.setPl -/

@[simp] theorem setPl_cycle (t : Nat) (p : Pulp) : (s.setPl t p).cycle = s.cycle := rfl
@[simp] theorem setPl_tiles (t : Nat) (p : Pulp) : (s.setPl t p).tiles = s.tiles := rfl
@[simp] theorem setPl_mem (t : Nat) (p : Pulp) : (s.setPl t p).mem = s.mem := rfl
@[simp] theorem setPl_felt (t : Nat) (p : Pulp) : (s.setPl t p).felt = s.felt := rfl
@[simp] theorem setPl_mesh (t : Nat) (p : Pulp) : (s.setPl t p).mesh = s.mesh := rfl
@[simp] theorem setPl_que (t : Nat) (p : Pulp) : (s.setPl t p).que = s.que := rfl
@[simp] theorem setPl_pulp (t : Nat) (p : Pulp) : (s.setPl t p).pulp = tset {} s.pulp t p := rfl
@[simp] theorem setPl_slots (t : Nat) (p : Pulp) : (s.setPl t p).slots = s.slots := rfl
@[simp] theorem setPl_log (t : Nat) (p : Pulp) : (s.setPl t p).log = s.log := rfl
@[simp] theorem setPl_red (t : Nat) (p : Pulp) : (s.setPl t p).red = s.red := rfl
@[simp] theorem setPl_ports (t : Nat) (p : Pulp) : (s.setPl t p).ports = s.ports := rfl
@[simp] theorem setPl_presets (t : Nat) (p : Pulp) : (s.setPl t p).presets = s.presets := rfl
@[simp] theorem setPl_tideHeld (t : Nat) (p : Pulp) : (s.setPl t p).tideHeld = s.tideHeld := rfl
@[simp] theorem setPl_linkN (t : Nat) (p : Pulp) : (s.setPl t p).linkN = s.linkN := rfl
@[simp] theorem setPl_clk (t : Nat) (p : Pulp) : (s.setPl t p).clk = s.clk := rfl
@[simp] theorem setPl_host (t : Nat) (p : Pulp) : (s.setPl t p).host = s.host := rfl
@[simp] theorem setPl_pwr (t : Nat) (p : Pulp) : (s.setPl t p).pwr = s.pwr := rfl
@[simp] theorem setPl_ras (t : Nat) (p : Pulp) : (s.setPl t p).ras = s.ras := rfl
@[simp] theorem setPl_boot (t : Nat) (p : Pulp) : (s.setPl t p).boot = s.boot := rfl
@[simp] theorem setPl_sec (t : Nat) (p : Pulp) : (s.setPl t p).sec = s.sec := rfl
@[simp] theorem setPl_mgmt (t : Nat) (p : Pulp) : (s.setPl t p).mgmt = s.mgmt := rfl
@[simp] theorem setPl_md (t : Nat) (p : Pulp) : (s.setPl t p).md = s.md := rfl
@[simp] theorem setPl_irq (t : Nat) (p : Pulp) : (s.setPl t p).irq = s.irq := rfl
@[simp] theorem setPl_msixMask (t : Nat) (p : Pulp) : (s.setPl t p).msixMask = s.msixMask := rfl
@[simp] theorem setPl_msixPend (t : Nat) (p : Pulp) : (s.setPl t p).msixPend = s.msixPend := rfl
@[simp] theorem setPl_xfHeld (t : Nat) (p : Pulp) : (s.setPl t p).xfHeld = s.xfHeld := rfl
@[simp] theorem setPl_slipHeld (t : Nat) (p : Pulp) : (s.setPl t p).slipHeld = s.slipHeld := rfl
@[simp] theorem setPl_fatalHeld (t : Nat) (p : Pulp) : (s.setPl t p).fatalHeld = s.fatalHeld := rfl
@[simp] theorem setPl_ticks (t : Nat) (p : Pulp) : (s.setPl t p).ticks = s.ticks := rfl
@[simp] theorem setPl_pulpDone (t : Nat) (p : Pulp) : (s.setPl t p).pulpDone = s.pulpDone := rfl
@[simp] theorem setPl_pulpLogged (t : Nat) (p : Pulp) : (s.setPl t p).pulpLogged = s.pulpLogged := rfl
@[simp] theorem setPl_uid (t : Nat) (p : Pulp) : (s.setPl t p).uid = s.uid := rfl
@[simp] theorem setPl_freeN (t : Nat) (p : Pulp) : (s.setPl t p).freeN = s.freeN := rfl
@[simp] theorem setPl_regs (t : Nat) (p : Pulp) : (s.setPl t p).regs = s.regs := rfl
@[simp] theorem setPl_latch (t : Nat) (p : Pulp) : (s.setPl t p).latch = s.latch := rfl
@[simp] theorem setPl_sched (t : Nat) (p : Pulp) : (s.setPl t p).sched = s.sched := rfl
@[simp] theorem setPl_pending (t : Nat) (p : Pulp) : (s.setPl t p).pending = s.pending := rfl

/-! ### State.setHq -/

@[simp] theorem setHq_cycle (f q : Nat) (x : HostQ) : (s.setHq f q x).cycle = s.cycle := rfl
@[simp] theorem setHq_tiles (f q : Nat) (x : HostQ) : (s.setHq f q x).tiles = s.tiles := rfl
@[simp] theorem setHq_mem (f q : Nat) (x : HostQ) : (s.setHq f q x).mem = s.mem := rfl
@[simp] theorem setHq_felt (f q : Nat) (x : HostQ) : (s.setHq f q x).felt = s.felt := rfl
@[simp] theorem setHq_mesh (f q : Nat) (x : HostQ) : (s.setHq f q x).mesh = s.mesh := rfl
@[simp] theorem setHq_que (f q : Nat) (x : HostQ) : (s.setHq f q x).que = s.que := rfl
@[simp] theorem setHq_pulp (f q : Nat) (x : HostQ) : (s.setHq f q x).pulp = s.pulp := rfl
@[simp] theorem setHq_slots (f q : Nat) (x : HostQ) : (s.setHq f q x).slots = s.slots := rfl
@[simp] theorem setHq_log (f q : Nat) (x : HostQ) : (s.setHq f q x).log = s.log := rfl
@[simp] theorem setHq_red (f q : Nat) (x : HostQ) : (s.setHq f q x).red = s.red := rfl
@[simp] theorem setHq_ports (f q : Nat) (x : HostQ) : (s.setHq f q x).ports = s.ports := rfl
@[simp] theorem setHq_presets (f q : Nat) (x : HostQ) : (s.setHq f q x).presets = s.presets := rfl
@[simp] theorem setHq_tideHeld (f q : Nat) (x : HostQ) : (s.setHq f q x).tideHeld = s.tideHeld := rfl
@[simp] theorem setHq_linkN (f q : Nat) (x : HostQ) : (s.setHq f q x).linkN = s.linkN := rfl
@[simp] theorem setHq_clk (f q : Nat) (x : HostQ) : (s.setHq f q x).clk = s.clk := rfl
@[simp] theorem setHq_host (f q : Nat) (x : HostQ) : (s.setHq f q x).host = { s.host with q := tset {} s.host.q (f * 16 + q) x } := rfl
@[simp] theorem setHq_pwr (f q : Nat) (x : HostQ) : (s.setHq f q x).pwr = s.pwr := rfl
@[simp] theorem setHq_ras (f q : Nat) (x : HostQ) : (s.setHq f q x).ras = s.ras := rfl
@[simp] theorem setHq_boot (f q : Nat) (x : HostQ) : (s.setHq f q x).boot = s.boot := rfl
@[simp] theorem setHq_sec (f q : Nat) (x : HostQ) : (s.setHq f q x).sec = s.sec := rfl
@[simp] theorem setHq_mgmt (f q : Nat) (x : HostQ) : (s.setHq f q x).mgmt = s.mgmt := rfl
@[simp] theorem setHq_md (f q : Nat) (x : HostQ) : (s.setHq f q x).md = s.md := rfl
@[simp] theorem setHq_irq (f q : Nat) (x : HostQ) : (s.setHq f q x).irq = s.irq := rfl
@[simp] theorem setHq_msixMask (f q : Nat) (x : HostQ) : (s.setHq f q x).msixMask = s.msixMask := rfl
@[simp] theorem setHq_msixPend (f q : Nat) (x : HostQ) : (s.setHq f q x).msixPend = s.msixPend := rfl
@[simp] theorem setHq_xfHeld (f q : Nat) (x : HostQ) : (s.setHq f q x).xfHeld = s.xfHeld := rfl
@[simp] theorem setHq_slipHeld (f q : Nat) (x : HostQ) : (s.setHq f q x).slipHeld = s.slipHeld := rfl
@[simp] theorem setHq_fatalHeld (f q : Nat) (x : HostQ) : (s.setHq f q x).fatalHeld = s.fatalHeld := rfl
@[simp] theorem setHq_ticks (f q : Nat) (x : HostQ) : (s.setHq f q x).ticks = s.ticks := rfl
@[simp] theorem setHq_pulpDone (f q : Nat) (x : HostQ) : (s.setHq f q x).pulpDone = s.pulpDone := rfl
@[simp] theorem setHq_pulpLogged (f q : Nat) (x : HostQ) : (s.setHq f q x).pulpLogged = s.pulpLogged := rfl
@[simp] theorem setHq_uid (f q : Nat) (x : HostQ) : (s.setHq f q x).uid = s.uid := rfl
@[simp] theorem setHq_freeN (f q : Nat) (x : HostQ) : (s.setHq f q x).freeN = s.freeN := rfl
@[simp] theorem setHq_regs (f q : Nat) (x : HostQ) : (s.setHq f q x).regs = s.regs := rfl
@[simp] theorem setHq_latch (f q : Nat) (x : HostQ) : (s.setHq f q x).latch = s.latch := rfl
@[simp] theorem setHq_sched (f q : Nat) (x : HostQ) : (s.setHq f q x).sched = s.sched := rfl
@[simp] theorem setHq_pending (f q : Nat) (x : HostQ) : (s.setHq f q x).pending = s.pending := rfl

/-! ### State.setRedSlot -/

@[simp] theorem setRedSlot_cycle (k : Nat) (x : RedSlot) : (s.setRedSlot k x).cycle = s.cycle := rfl
@[simp] theorem setRedSlot_tiles (k : Nat) (x : RedSlot) : (s.setRedSlot k x).tiles = s.tiles := rfl
@[simp] theorem setRedSlot_mem (k : Nat) (x : RedSlot) : (s.setRedSlot k x).mem = s.mem := rfl
@[simp] theorem setRedSlot_felt (k : Nat) (x : RedSlot) : (s.setRedSlot k x).felt = s.felt := rfl
@[simp] theorem setRedSlot_mesh (k : Nat) (x : RedSlot) : (s.setRedSlot k x).mesh = s.mesh := rfl
@[simp] theorem setRedSlot_que (k : Nat) (x : RedSlot) : (s.setRedSlot k x).que = s.que := rfl
@[simp] theorem setRedSlot_pulp (k : Nat) (x : RedSlot) : (s.setRedSlot k x).pulp = s.pulp := rfl
@[simp] theorem setRedSlot_slots (k : Nat) (x : RedSlot) : (s.setRedSlot k x).slots = s.slots := rfl
@[simp] theorem setRedSlot_log (k : Nat) (x : RedSlot) : (s.setRedSlot k x).log = s.log := rfl
@[simp] theorem setRedSlot_red (k : Nat) (x : RedSlot) : (s.setRedSlot k x).red = tset {} s.red k x := rfl
@[simp] theorem setRedSlot_ports (k : Nat) (x : RedSlot) : (s.setRedSlot k x).ports = s.ports := rfl
@[simp] theorem setRedSlot_presets (k : Nat) (x : RedSlot) : (s.setRedSlot k x).presets = s.presets := rfl
@[simp] theorem setRedSlot_tideHeld (k : Nat) (x : RedSlot) : (s.setRedSlot k x).tideHeld = s.tideHeld := rfl
@[simp] theorem setRedSlot_linkN (k : Nat) (x : RedSlot) : (s.setRedSlot k x).linkN = s.linkN := rfl
@[simp] theorem setRedSlot_clk (k : Nat) (x : RedSlot) : (s.setRedSlot k x).clk = s.clk := rfl
@[simp] theorem setRedSlot_host (k : Nat) (x : RedSlot) : (s.setRedSlot k x).host = s.host := rfl
@[simp] theorem setRedSlot_pwr (k : Nat) (x : RedSlot) : (s.setRedSlot k x).pwr = s.pwr := rfl
@[simp] theorem setRedSlot_ras (k : Nat) (x : RedSlot) : (s.setRedSlot k x).ras = s.ras := rfl
@[simp] theorem setRedSlot_boot (k : Nat) (x : RedSlot) : (s.setRedSlot k x).boot = s.boot := rfl
@[simp] theorem setRedSlot_sec (k : Nat) (x : RedSlot) : (s.setRedSlot k x).sec = s.sec := rfl
@[simp] theorem setRedSlot_mgmt (k : Nat) (x : RedSlot) : (s.setRedSlot k x).mgmt = s.mgmt := rfl
@[simp] theorem setRedSlot_md (k : Nat) (x : RedSlot) : (s.setRedSlot k x).md = s.md := rfl
@[simp] theorem setRedSlot_irq (k : Nat) (x : RedSlot) : (s.setRedSlot k x).irq = s.irq := rfl
@[simp] theorem setRedSlot_msixMask (k : Nat) (x : RedSlot) : (s.setRedSlot k x).msixMask = s.msixMask := rfl
@[simp] theorem setRedSlot_msixPend (k : Nat) (x : RedSlot) : (s.setRedSlot k x).msixPend = s.msixPend := rfl
@[simp] theorem setRedSlot_xfHeld (k : Nat) (x : RedSlot) : (s.setRedSlot k x).xfHeld = s.xfHeld := rfl
@[simp] theorem setRedSlot_slipHeld (k : Nat) (x : RedSlot) : (s.setRedSlot k x).slipHeld = s.slipHeld := rfl
@[simp] theorem setRedSlot_fatalHeld (k : Nat) (x : RedSlot) : (s.setRedSlot k x).fatalHeld = s.fatalHeld := rfl
@[simp] theorem setRedSlot_ticks (k : Nat) (x : RedSlot) : (s.setRedSlot k x).ticks = s.ticks := rfl
@[simp] theorem setRedSlot_pulpDone (k : Nat) (x : RedSlot) : (s.setRedSlot k x).pulpDone = s.pulpDone := rfl
@[simp] theorem setRedSlot_pulpLogged (k : Nat) (x : RedSlot) : (s.setRedSlot k x).pulpLogged = s.pulpLogged := rfl
@[simp] theorem setRedSlot_uid (k : Nat) (x : RedSlot) : (s.setRedSlot k x).uid = s.uid := rfl
@[simp] theorem setRedSlot_freeN (k : Nat) (x : RedSlot) : (s.setRedSlot k x).freeN = s.freeN := rfl
@[simp] theorem setRedSlot_regs (k : Nat) (x : RedSlot) : (s.setRedSlot k x).regs = s.regs := rfl
@[simp] theorem setRedSlot_latch (k : Nat) (x : RedSlot) : (s.setRedSlot k x).latch = s.latch := rfl
@[simp] theorem setRedSlot_sched (k : Nat) (x : RedSlot) : (s.setRedSlot k x).sched = s.sched := rfl
@[simp] theorem setRedSlot_pending (k : Nat) (x : RedSlot) : (s.setRedSlot k x).pending = s.pending := rfl

/-! ### State.fire -/

@[simp] theorem fire_cycle (f v : Nat) : (s.fire f v).cycle = s.cycle := rfl
@[simp] theorem fire_tiles (f v : Nat) : (s.fire f v).tiles = s.tiles := rfl
@[simp] theorem fire_mem (f v : Nat) : (s.fire f v).mem = s.mem := rfl
@[simp] theorem fire_felt (f v : Nat) : (s.fire f v).felt = s.felt := rfl
@[simp] theorem fire_mesh (f v : Nat) : (s.fire f v).mesh = s.mesh := rfl
@[simp] theorem fire_que (f v : Nat) : (s.fire f v).que = s.que := rfl
@[simp] theorem fire_pulp (f v : Nat) : (s.fire f v).pulp = s.pulp := rfl
@[simp] theorem fire_slots (f v : Nat) : (s.fire f v).slots = s.slots := rfl
@[simp] theorem fire_log (f v : Nat) : (s.fire f v).log = s.log := rfl
@[simp] theorem fire_red (f v : Nat) : (s.fire f v).red = s.red := rfl
@[simp] theorem fire_ports (f v : Nat) : (s.fire f v).ports = s.ports := rfl
@[simp] theorem fire_presets (f v : Nat) : (s.fire f v).presets = s.presets := rfl
@[simp] theorem fire_tideHeld (f v : Nat) : (s.fire f v).tideHeld = s.tideHeld := rfl
@[simp] theorem fire_linkN (f v : Nat) : (s.fire f v).linkN = s.linkN := rfl
@[simp] theorem fire_clk (f v : Nat) : (s.fire f v).clk = s.clk := rfl
@[simp] theorem fire_host (f v : Nat) : (s.fire f v).host = s.host := rfl
@[simp] theorem fire_pwr (f v : Nat) : (s.fire f v).pwr = s.pwr := rfl
@[simp] theorem fire_ras (f v : Nat) : (s.fire f v).ras = s.ras := rfl
@[simp] theorem fire_boot (f v : Nat) : (s.fire f v).boot = s.boot := rfl
@[simp] theorem fire_sec (f v : Nat) : (s.fire f v).sec = s.sec := rfl
@[simp] theorem fire_mgmt (f v : Nat) : (s.fire f v).mgmt = s.mgmt := rfl
@[simp] theorem fire_md (f v : Nat) : (s.fire f v).md = s.md := rfl
@[simp] theorem fire_irq (f v : Nat) : (s.fire f v).irq = if (tfind s.msixMask (f * 32 + v)).isSome then s.irq else tmod 0 s.irq (f * 32 + v) (· + 1) := rfl
@[simp] theorem fire_msixMask (f v : Nat) : (s.fire f v).msixMask = s.msixMask := rfl
@[simp] theorem fire_msixPend (f v : Nat) : (s.fire f v).msixPend = if (tfind s.msixMask (f * 32 + v)).isSome then tput s.msixPend (f * 32 + v) () else s.msixPend := rfl
@[simp] theorem fire_xfHeld (f v : Nat) : (s.fire f v).xfHeld = s.xfHeld := rfl
@[simp] theorem fire_slipHeld (f v : Nat) : (s.fire f v).slipHeld = s.slipHeld := rfl
@[simp] theorem fire_fatalHeld (f v : Nat) : (s.fire f v).fatalHeld = s.fatalHeld := rfl
@[simp] theorem fire_ticks (f v : Nat) : (s.fire f v).ticks = s.ticks := rfl
@[simp] theorem fire_pulpDone (f v : Nat) : (s.fire f v).pulpDone = s.pulpDone := rfl
@[simp] theorem fire_pulpLogged (f v : Nat) : (s.fire f v).pulpLogged = s.pulpLogged := rfl
@[simp] theorem fire_uid (f v : Nat) : (s.fire f v).uid = s.uid := rfl
@[simp] theorem fire_freeN (f v : Nat) : (s.fire f v).freeN = s.freeN := rfl
@[simp] theorem fire_regs (f v : Nat) : (s.fire f v).regs = s.regs := rfl
@[simp] theorem fire_latch (f v : Nat) : (s.fire f v).latch = s.latch := rfl
@[simp] theorem fire_sched (f v : Nat) : (s.fire f v).sched = s.sched := rfl
@[simp] theorem fire_pending (f v : Nat) : (s.fire f v).pending = s.pending := rfl

/-! ### State.eccFresh -/

@[simp] theorem eccFresh_cycle (place lo n : Nat) : (s.eccFresh place lo n).cycle = s.cycle := rfl
@[simp] theorem eccFresh_tiles (place lo n : Nat) : (s.eccFresh place lo n).tiles = s.tiles := rfl
@[simp] theorem eccFresh_mem (place lo n : Nat) : (s.eccFresh place lo n).mem = { s.mem with ecc := dropRange s.mem.ecc (eccKey place lo) n } := rfl
@[simp] theorem eccFresh_felt (place lo n : Nat) : (s.eccFresh place lo n).felt = s.felt := rfl
@[simp] theorem eccFresh_mesh (place lo n : Nat) : (s.eccFresh place lo n).mesh = s.mesh := rfl
@[simp] theorem eccFresh_que (place lo n : Nat) : (s.eccFresh place lo n).que = s.que := rfl
@[simp] theorem eccFresh_pulp (place lo n : Nat) : (s.eccFresh place lo n).pulp = s.pulp := rfl
@[simp] theorem eccFresh_slots (place lo n : Nat) : (s.eccFresh place lo n).slots = s.slots := rfl
@[simp] theorem eccFresh_log (place lo n : Nat) : (s.eccFresh place lo n).log = s.log := rfl
@[simp] theorem eccFresh_red (place lo n : Nat) : (s.eccFresh place lo n).red = s.red := rfl
@[simp] theorem eccFresh_ports (place lo n : Nat) : (s.eccFresh place lo n).ports = s.ports := rfl
@[simp] theorem eccFresh_presets (place lo n : Nat) : (s.eccFresh place lo n).presets = s.presets := rfl
@[simp] theorem eccFresh_tideHeld (place lo n : Nat) : (s.eccFresh place lo n).tideHeld = s.tideHeld := rfl
@[simp] theorem eccFresh_linkN (place lo n : Nat) : (s.eccFresh place lo n).linkN = s.linkN := rfl
@[simp] theorem eccFresh_clk (place lo n : Nat) : (s.eccFresh place lo n).clk = s.clk := rfl
@[simp] theorem eccFresh_host (place lo n : Nat) : (s.eccFresh place lo n).host = s.host := rfl
@[simp] theorem eccFresh_pwr (place lo n : Nat) : (s.eccFresh place lo n).pwr = s.pwr := rfl
@[simp] theorem eccFresh_ras (place lo n : Nat) : (s.eccFresh place lo n).ras = s.ras := rfl
@[simp] theorem eccFresh_boot (place lo n : Nat) : (s.eccFresh place lo n).boot = s.boot := rfl
@[simp] theorem eccFresh_sec (place lo n : Nat) : (s.eccFresh place lo n).sec = s.sec := rfl
@[simp] theorem eccFresh_mgmt (place lo n : Nat) : (s.eccFresh place lo n).mgmt = s.mgmt := rfl
@[simp] theorem eccFresh_md (place lo n : Nat) : (s.eccFresh place lo n).md = s.md := rfl
@[simp] theorem eccFresh_irq (place lo n : Nat) : (s.eccFresh place lo n).irq = s.irq := rfl
@[simp] theorem eccFresh_msixMask (place lo n : Nat) : (s.eccFresh place lo n).msixMask = s.msixMask := rfl
@[simp] theorem eccFresh_msixPend (place lo n : Nat) : (s.eccFresh place lo n).msixPend = s.msixPend := rfl
@[simp] theorem eccFresh_xfHeld (place lo n : Nat) : (s.eccFresh place lo n).xfHeld = s.xfHeld := rfl
@[simp] theorem eccFresh_slipHeld (place lo n : Nat) : (s.eccFresh place lo n).slipHeld = s.slipHeld := rfl
@[simp] theorem eccFresh_fatalHeld (place lo n : Nat) : (s.eccFresh place lo n).fatalHeld = s.fatalHeld := rfl
@[simp] theorem eccFresh_ticks (place lo n : Nat) : (s.eccFresh place lo n).ticks = s.ticks := rfl
@[simp] theorem eccFresh_pulpDone (place lo n : Nat) : (s.eccFresh place lo n).pulpDone = s.pulpDone := rfl
@[simp] theorem eccFresh_pulpLogged (place lo n : Nat) : (s.eccFresh place lo n).pulpLogged = s.pulpLogged := rfl
@[simp] theorem eccFresh_uid (place lo n : Nat) : (s.eccFresh place lo n).uid = s.uid := rfl
@[simp] theorem eccFresh_freeN (place lo n : Nat) : (s.eccFresh place lo n).freeN = s.freeN := rfl
@[simp] theorem eccFresh_regs (place lo n : Nat) : (s.eccFresh place lo n).regs = s.regs := rfl
@[simp] theorem eccFresh_latch (place lo n : Nat) : (s.eccFresh place lo n).latch = s.latch := rfl
@[simp] theorem eccFresh_sched (place lo n : Nat) : (s.eccFresh place lo n).sched = s.sched := rfl
@[simp] theorem eccFresh_pending (place lo n : Nat) : (s.eccFresh place lo n).pending = s.pending := rfl

/-! ### Reading after an update -/

@[simp] theorem tile_setTile (t : Nat) (x : Tile) : (s.setTile t x).tile t = x := tget_tset_same ..
theorem tile_setTile_other {t u : Nat} (x : Tile) (h : t ≠ u) : (s.setTile t x).tile u = s.tile u := tget_tset_other _ _ _ h
@[simp] theorem reg_setReg (n : RegNo) (v : Word) : (s.setReg n v).reg n = v := tget_tset_same ..
theorem reg_setReg_other {n m : RegNo} (v : Word) (h : n ≠ m) : (s.setReg n v).reg m = s.reg m := by
  unfold State.reg State.setReg
  simp only [tget_eq_tfind, tset]
  split
  · rw [tfind_tdel, if_neg h]
  · rw [tfind_tput, if_neg h]
@[simp] theorem slot_setSlot (k : Nat) (p : Slot) : (s.setSlot k p).slot k = p := tget_tset_same ..
theorem slot_setSlot_other {k j : Nat} (p : Slot) (h : k ≠ j) : (s.setSlot k p).slot j = s.slot j := tget_tset_other _ _ _ h
@[simp] theorem port_setPort (p : Nat) (x : Port) : (s.setPort p x).port p = x := tget_tset_same ..
theorem port_setPort_other {p q : Nat} (x : Port) (h : p ≠ q) : (s.setPort p x).port q = s.port q := tget_tset_other _ _ _ h
@[simp] theorem bank_setBank (t b : Nat) (x : Bank) : (s.setBank t b x).bank t b = x := by
  simp [State.bank, State.setBank, State.modTile]
theorem bank_setBank_other {t b t' b' : Nat} (x : Bank) (h : t ≠ t' ∨ b ≠ b') : (s.setBank t b x).bank t' b' = s.bank t' b' := by
  by_cases ht : t = t'
  · subst ht
    simp only [State.bank, State.setBank, State.modTile, tile_setTile]
    exact tget_tset_other _ _ _ (h.resolve_left fun hn => hn rfl)
  · simp only [State.bank, State.setBank, State.modTile, tile_setTile_other _ _ ht]
@[simp] theorem tag_setTag (t k : Nat) (x : TagSt) : (s.setTag t k x).tag t k = x := tget_tset_same ..
theorem tag_setTag_other {t k t' k' : Nat} (x : TagSt) (h : t * 64 + k ≠ t' * 64 + k') :
    (s.setTag t k x).tag t' k' = s.tag t' k' := tget_tset_other _ _ _ h
@[simp] theorem sheet_setSheet (t n : Nat) (x : SheetSt) : (s.setSheet t n x).sheet t n = x := tget_tset_same ..
theorem sheet_setSheet_other {t n t' n' : Nat} (x : SheetSt) (h : t * 768 + n ≠ t' * 768 + n') :
    (s.setSheet t n x).sheet t' n' = s.sheet t' n' := tget_tset_other _ _ _ h
@[simp] theorem qEnts_setEnts (t q : Nat) (l : List QEnt) : (s.setEnts t q l).qEnts t q = l := tget_tset_same ..
@[simp] theorem hq_setHq (f q : Nat) (x : HostQ) : (s.setHq f q x).hq f q = x := tget_tset_same ..
@[simp] theorem gr_setGr (x : Tile) (r : GReg) (v : Word) : (x.setGr r v).gr r = v := tget_tset_same ..
theorem gr_setGr_other (x : Tile) {r q : GReg} (v : Word) (h : r ≠ q) : (x.setGr r v).gr q = x.gr q :=
  tget_tset_other _ _ _ fun hv => h (Fin.ext hv)
@[simp] theorem loop_setLoop (x : Tile) (k : Nat) (l : Loop) : (x.setLoop k l).loop k = l := tget_tset_same ..
@[simp] theorem arr_setArr (x : Tile) (a : Fin 2) (y : ArraySt) : (x.setArr a y).arr a = y := by
  unfold Tile.setArr Tile.arr
  split <;> rfl

/-! ### The memories stay canonical under the operations that write them -/

theorem tsPut_canonical (t a : Nat) (b : Bytes) (h : Memory.wf s.mem.ts = true) : Memory.wf (s.tsPut t a b).mem.ts = true :=
  wf_mwrite _ _ _ h

theorem eccWrites_mem (place : Nat) (l : List Nat) (f : Nat → Nat) :
    (l.foldl (fun s k => s.eccWrite place (f k)) s).mem = { s.mem with ecc := (l.foldl (fun s k => s.eccWrite place (f k)) s).mem.ecc } := by
  induction l generalizing s with
  | nil => rfl
  | cons k l ih => simp only [List.foldl_cons]; rw [ih]; rfl

theorem rsvPut_canonical (l off : Nat) (d : Bytes) (c : Word) (h : Memory.wf s.mem.rsv = true) :
    Memory.wf (s.rsvPut l off d c).mem.rsv = true := by
  unfold State.rsvPut
  dsimp only
  apply wf_mwrite
  rw [eccWrites_mem]
  exact h

theorem hbmPut_canonical (pa : Nat) (d : Bytes) (c : Word) (h : Memory.wf s.mem.hbm = true) :
    Memory.wf (s.hbmPut pa d c).mem.hbm = true := by
  unfold State.hbmPut
  exact wf_mwrite _ _ _ h

end Sys2Proof.Machine
end

