-- ==== Sys2Proof/Laws/Ops.lean ====
section
/-!
SUPPORT. What the shared operations of Machine/Ops.lean, Machine/Stop.lean and Machine/HostQueue.lean can do, one lemma
an operation: a proof about a command cites these and unfolds none of them.
-/
namespace Sys2Proof.Machine

variable (s : State)

/-! ### Slots (R237, R239, R240, R255) -/

/-- Where no chain stage takes the unit, or the predicate does not hold, the gate is open. -/
theorem gate_open (u : Site) (slot : Nat) (f : State → State) (h : s.on u = false ∨ s.chainBusy u.tile.val slot = false) :
    s.gate u slot f = f s := by
  unfold State.gate
  rw [if_neg]
  rcases h with h | h <;> simp [h]

/-- Where a chain stage takes the unit, the operation does nothing but what a debug build reports. -/
theorem gate_shut (u : Site) (slot : Nat) (f : State → State) (h : s.on u = true) (h' : s.chainBusy u.tile.val slot = true) :
    OnlyLogs s (s.gate u slot f) := by
  unfold State.gate
  rw [if_pos (by simp [h, h'])]
  exact coreHaz_onlyLogs ..

theorem badOperand_onlyLogs (u : Site) (slot : Nat) : OnlyLogs s (s.badOperand u slot) := coreHaz_onlyLogs ..
theorem badOperand_release (u : Site) (slot : Nat) (h : s.debug = false) : s.badOperand u slot = s := coreHaz_release _ _ _ _ h

/-- A result written to a general register is one delayed effect. -/
theorem wr_schedules (u : Site) (slot n : Nat) (rd : GReg) (v : Word) :
    Schedules s (s.wr u slot n rd v) [(s.cycle + n, .gset u.tile.val rd v)] := regW_schedules ..

/-- Flags go to the tile's sticky flags, now or in a later cycle. -/
theorem flagAt_cases (t due : Nat) (m : Byte) :
    s.flagAt t due m = s ∨ s.flagAt t due m = s.modTile t (fun x => { x with flags := x.flags ||| m }) ∨
      s.flagAt t due m = { s with sched := s.sched ++ [(due, .flags t m)] } := by
  unfold State.flagAt
  split
  · exact .inl rfl
  · split
    · exact .inr (.inl rfl)
    · exact .inr (.inr rfl)

/-! ### Errors of memories (R406–R411) -/

theorem checkFail_onlyLogs (src place unit addr : Nat) (owner : Option Nat) :
    OnlyLogs s (s.checkFail src place unit addr owner) :=
  onlyLogs_trans (onlyLogs_trans (setBits_onlyLogs ..) (bump_onlyLogs ..)) (logStop_onlyLogs ..)

/-- A read of a word reports what the word is flagged with, and changes nothing else. -/
theorem eccRead_onlyLogs (place w src unit addr : Nat) (scrub : Bool) (owner : Option Nat) :
    OnlyLogs s (s.eccRead place w src unit addr scrub owner) := by
  unfold State.eccRead
  split
  · exact onlyLogs_refl s
  · split
    · exact onlyLogs_trans (onlyLogs_trans (setBits_onlyLogs ..) (bump_onlyLogs ..)) (log1_onlyLogs ..)
    · exact onlyLogs_trans (onlyLogs_trans (setBits_onlyLogs ..) (bump_onlyLogs ..)) (logStop_onlyLogs ..)

theorem eccRead_clean (place w src unit addr : Nat) (scrub : Bool) (owner : Option Nat)
    (h : tget 0 s.mem.ecc (eccKey place w) = 0) : s.eccRead place w src unit addr scrub owner = s := by
  unfold State.eccRead
  rw [h]
  rfl

/-- A list of changes each of which only logs. -/
theorem foldl_onlyLogs {α : Type} (f : State → α → State) (l : List α) (h : ∀ u x, OnlyLogs u (f u x)) :
    OnlyLogs s (l.foldl f s) := by
  induction l generalizing s with
  | nil => exact onlyLogs_refl s
  | cons x r ih => exact onlyLogs_trans (h s x) (ih (f s x))

theorem eccSpan_onlyLogs (place lo n src unit : Nat) (owner : Option Nat) : OnlyLogs s (s.eccSpan place lo n src unit owner) :=
  foldl_onlyLogs s _ _ fun u _ => eccRead_onlyLogs u ..

/-- Memories without an error report none. -/
theorem eccSpan_clean (place lo n src unit : Nat) (owner : Option Nat) (h : s.mem.ecc = []) :
    s.eccSpan place lo n src unit owner = s := by
  unfold State.eccSpan eccMarks tregion
  rw [h]
  rfl

/-! ### Reads of a tile store (R40, R129) -/

/-- The state where nothing but records, and the status bits and counts of tiles, has changed. -/
def OnlyReports (s t : State) : Prop :=
  t = { s with log := t.log, regs := t.regs, irq := t.irq, msixPend := t.msixPend, slots := t.slots, fatalHeld := t.fatalHeld, tiles := t.tiles }

theorem onlyReports_refl : OnlyReports s s := rfl

theorem onlyReports_trans {s t r : State} (h : OnlyReports s t) (h' : OnlyReports t r) : OnlyReports s r := by
  unfold OnlyReports at *
  refine h'.trans ?_
  rw [h]

theorem onlyLogs_onlyReports {s t : State} (h : OnlyLogs s t) : OnlyReports s t := by
  unfold OnlyLogs OnlyReports at *
  rw [h]

theorem memBit_onlyReports (t m : Nat) : OnlyReports s (s.memBit t m) := rfl

theorem offRead_onlyReports (t : Nat) (gs : List Nat) : OnlyReports s (offRead s t gs) := by
  unfold offRead
  split
  · exact onlyReports_trans (onlyReports_trans (memBit_onlyReports ..) (onlyLogs_onlyReports (bump_onlyLogs ..)))
      (onlyLogs_onlyReports (hazard_onlyLogs ..))
  · exact onlyReports_refl s

theorem serveGranule_onlyLogs (t rank G : Nat) (taken : List Nat) : OnlyLogs s (serveGranule t rank G taken s).2.1 := by
  unfold serveGranule
  dsimp only
  split
  · exact onlyLogs_refl s
  · split
    · exact hazard_onlyLogs ..
    · exact eccRead_onlyLogs ..

theorem serveGranules_onlyLogs (t rank : Nat) (gs taken lost : List Nat) :
    OnlyLogs s (serveGranules t rank gs taken s lost).2.1 := by
  induction gs generalizing s taken lost with
  | nil => exact onlyLogs_refl s
  | cons G r ih =>
    have h := serveGranule_onlyLogs s t rank G taken
    unfold serveGranules
    split <;> rename_i heq <;> rw [heq] at h <;> exact onlyLogs_trans h (ih ..)

/-- A read of a tile store changes no memory: only records and the status bits and counts of tiles. -/
theorem serveRead_onlyReports (t rank : Nat) (segs : List (Nat × Nat)) (taken : List Nat) :
    OnlyReports s (serveRead t rank segs taken s).2.1 := by
  unfold serveRead
  exact onlyReports_trans (offRead_onlyReports ..) (onlyLogs_onlyReports (serveGranules_onlyLogs ..))

/-! ### Writes of a tile store (R40, R126, R129) -/

/-- The bytes of a run are written where their granules are not lost; nothing else changes. -/
theorem putRun_frame (t : Nat) (lost : List Nat) (a : Nat) (d : Bytes) :
    ∃ m, putRun s t lost a d = { s with mem := { s.mem with ts := m } } ∧
      ∀ j, mget m j = if t * tsSize + a ≤ j ∧ j < t * tsSize + a + d.length ∧ ¬ lost.contains ((j - t * tsSize) / 8) = true
        then d.getD (j - (t * tsSize + a)) 0 else mget s.mem.ts j := by
  induction d generalizing s a with
  | nil =>
    refine ⟨s.mem.ts, rfl, fun j => ?_⟩
    rw [if_neg]
    simp only [List.length_nil]
    omega
  | cons b r ih =>
    have tail (m0 m : Mem)
        (h0 : ∀ j, j ≠ t * tsSize + a → mget m0 j = mget s.mem.ts j)
        (h1 : mget m0 (t * tsSize + a) = if lost.contains (a / 8) = true then mget s.mem.ts (t * tsSize + a) else b)
        (h2 : ∀ j, mget m j = if t * tsSize + (a + 1) ≤ j ∧ j < t * tsSize + (a + 1) + r.length ∧
          ¬ lost.contains ((j - t * tsSize) / 8) = true then r.getD (j - (t * tsSize + (a + 1))) 0 else mget m0 j) (j : Nat) :
        mget m j = if t * tsSize + a ≤ j ∧ j < t * tsSize + a + (b :: r).length ∧ ¬ lost.contains ((j - t * tsSize) / 8) = true
          then (b :: r).getD (j - (t * tsSize + a)) 0 else mget s.mem.ts j := by
      rw [h2 j]
      simp only [List.length_cons]
      by_cases hj : j = t * tsSize + a
      · subst hj
        rw [if_neg (by omega), h1, Nat.add_sub_cancel_left]
        by_cases hl : lost.contains (a / 8) = true
        · rw [if_pos hl, if_neg (fun h => h.2.2 hl)]
        · rw [if_neg hl, if_pos ⟨Nat.le_refl _, by omega, hl⟩, Nat.sub_self]; rfl
      · rw [h0 j hj]
        by_cases hc : t * tsSize + (a + 1) ≤ j ∧ j < t * tsSize + (a + 1) + r.length ∧ ¬ lost.contains ((j - t * tsSize) / 8) = true
        · rw [if_pos hc, if_pos ⟨by omega, by omega, hc.2.2⟩,
            show j - (t * tsSize + a) = (j - (t * tsSize + (a + 1))) + 1 by omega]
          rfl
        · rw [if_neg hc, if_neg (fun h => hc ⟨by omega, by omega, h.2.2⟩)]
    unfold putRun
    dsimp only
    by_cases hl : lost.contains (a / 8) = true
    · rw [if_pos hl]
      obtain ⟨m, h1, h2⟩ := ih s (a + 1)
      exact ⟨m, h1, tail s.mem.ts m (fun _ _ => rfl) (by rw [if_pos hl]) h2⟩
    · rw [if_neg hl]
      obtain ⟨m, h1, h2⟩ := ih { s with mem := { s.mem with ts := mset s.mem.ts (t * tsSize + a) b } } (a + 1)
      exact ⟨m, h1, tail _ m (fun j hj => (mget_mset ..).trans (if_neg fun h => hj h.symm))
        (by rw [if_neg hl]; exact (mget_mset ..).trans (if_pos rfl)) h2⟩

/-- Sealing a run touches the states of sheets alone. -/
theorem sealRun_frame (t prod a : Nat) (d : Bytes) (fuel : Nat) :
    ∃ x e, sealRun s t prod a d fuel = { s with mem := { s.mem with sheets := x, ecc := e } } := by
  induction fuel generalizing s a d with
  | zero => exact ⟨_, _, rfl⟩
  | succ n ih =>
    unfold sealRun
    split
    · exact ⟨_, _, rfl⟩
    · obtain ⟨x, e, h⟩ := ih (s.setSheet t (a / 256) (sheetWrite (s.sheet t (a / 256)) prod (a % 256)
        (d.take (min d.length (256 - a % 256))))) (a + min d.length (256 - a % 256)) (d.drop (min d.length (256 - a % 256)))
      exact ⟨x, e, h⟩

theorem reducedHalf_frame (t a : Nat) (d : Bytes) (first : Option Bytes) :
    ∃ x e, reducedHalf s t a d first = { s with mem := { s.mem with sheets := x, ecc := e } } := by
  unfold reducedHalf
  dsimp only
  split
  · exact ⟨_, _, rfl⟩
  · exact ⟨_, _, rfl⟩

/-- A half of an arriving sheet touches the state of its sheet, and a mismatch is reported. -/
theorem arriveHalf_frame (t a : Nat) (d first : Bytes) (lo hi : Nat) :
    ∃ x e, OnlyLogs { s with mem := { s.mem with sheets := x, ecc := e } } (arriveHalf s t a d first lo hi) := by
  unfold arriveHalf
  dsimp only
  split
  · exact ⟨_, _, onlyLogs_refl (s.setSheet t (a / 256) { crc := (s.sheet t (a / 256)).crc, opn := true })⟩
  · split
    · exact ⟨_, _, onlyLogs_refl (s.setSheet t (a / 256) { crc := BitVec.ofNat 32 (lo % 65536 + hi * 65536) })⟩
    · exact ⟨_, _, checkFail_onlyLogs (s.setSheet t (a / 256) { crc := BitVec.ofNat 32 (lo % 65536 + hi * 65536) }) ..⟩

/-- HBM, the reservoirs and byte j of the tile stores read in u as in s. -/
def Keeps (j : Nat) (s u : State) : Prop :=
  u.mem.hbm = s.mem.hbm ∧ u.mem.rsv = s.mem.rsv ∧ mget u.mem.ts j = mget s.mem.ts j

theorem keeps_trans {j : Nat} {s u v : State} (h : Keeps j s u) (h' : Keeps j u v) : Keeps j s v :=
  ⟨h'.1.trans h.1, h'.2.1.trans h.2.1, h'.2.2.trans h.2.2⟩

theorem onlyReports_keeps (j : Nat) {s u : State} (h : OnlyReports s u) : Keeps j s u := by
  unfold OnlyReports at h
  unfold Keeps
  rw [h]
  exact ⟨rfl, rfl, rfl⟩

theorem foldl_keeps {α : Type} {j : Nat} {s u : State} {f : State → α → State} {l : List α} (hu : Keeps j s u)
    (h : ∀ u, ∀ x ∈ l, Keeps j u (f u x)) : Keeps j s (l.foldl f u) := by
  induction l generalizing u with
  | nil => exact hu
  | cons x r ih => exact ih (keeps_trans hu (h u x (by simp))) fun u y hy => h u y (by simp [hy])

theorem noteHalf_keeps (j t prod : Nat) (segs : List (Nat × Bytes)) (since : Nat) (dropped : Bool) (chk : Nat) :
    Keeps j s (noteHalf t prod segs since dropped chk s) := by
  unfold noteHalf
  dsimp only
  split
  · exact ⟨rfl, rfl, rfl⟩
  · exact ⟨rfl, rfl, rfl⟩

/-- A write that is served leaves HBM, the reservoirs, and every byte outside its runs. -/
theorem putWrite_keeps (t rank : Nat) (segs : List (Nat × Bytes)) (prod : Nat) (half : Option HalfSt) (chk : Nat)
    (taken : List Nat) (j : Nat)
    (h : ∀ e ∈ segs, j < t * tsSize + e.1 ∨ t * tsSize + e.1 + e.2.length ≤ j) :
    Keeps j s (putWrite s t rank segs prod half chk taken).2 := by
  have put (lost : List Nat) (u : State) (e : Nat × Bytes) (he : e ∈ segs) : Keeps j u (putRun u t lost e.1 e.2) := by
    obtain ⟨m, h1, h2⟩ := putRun_frame u t lost e.1 e.2
    rw [h1]
    refine ⟨rfl, rfl, (h2 j).trans (if_neg ?_)⟩
    have := h e he
    omega
  unfold putWrite
  dsimp only
  have base := foldl_keeps (foldl_keeps (foldl_keeps (j := j) (s := s) ⟨rfl, rfl, rfl⟩
      (l := (segGranules (segs.map fun e => (e.1, e.2.length))).filter fun G => taken.contains (bankOf G))
      (f := fun s G => s.hazard t (tsHaz 1 (bankOf G) rank s.cycle (8 * G)))
      fun u x _ => onlyReports_keeps j (onlyLogs_onlyReports (hazard_onlyLogs ..)))
    (l := (segGranules (segs.map fun e => (e.1, e.2.length))).filter fun G => !taken.contains (bankOf G))
    (f := fun s G => s.eccWrite placeTs (t * 0x6000 + G)) fun u x _ => ⟨rfl, rfl, rfl⟩)
    (l := segs) (f := fun s e => putRun s t
      ((segGranules (segs.map fun e => (e.1, e.2.length))).filter fun G => taken.contains (bankOf G)) e.1 e.2)
    fun u e he => put _ u e he
  split
  · refine foldl_keeps base fun u e _ => ?_
    obtain ⟨x, k, hx⟩ := arriveHalf_frame u t e.1 e.2 ((half.map (·.data)).getD []) ((half.map (·.chk)).getD chk) chk
    exact keeps_trans (u := { u with mem := { u.mem with sheets := x, ecc := k } }) ⟨rfl, rfl, rfl⟩
      (onlyReports_keeps j (onlyLogs_onlyReports hx))
  · split
    · refine foldl_keeps base fun u e _ => ?_
      obtain ⟨x, k, hx⟩ := reducedHalf_frame u t e.1 e.2 (half.map (·.data))
      rw [hx]
      exact ⟨rfl, rfl, rfl⟩
    · refine foldl_keeps base fun u e _ => ?_
      obtain ⟨x, k, hx⟩ := sealRun_frame u t prod e.1 e.2 (e.2.length + 1)
      rw [hx]
      exact ⟨rfl, rfl, rfl⟩

/-- A write of a tile store, served or dropped, leaves HBM, the reservoirs, and every byte outside its runs. -/
theorem serveWrite_keeps (t rank : Nat) (segs : List (Nat × Bytes)) (prod chk since : Nat) (taken : List Nat) (j : Nat)
    (h : ∀ e ∈ segs, j < t * tsSize + e.1 ∨ t * tsSize + e.1 + e.2.length ≤ j) :
    Keeps j s (serveWrite t rank segs prod chk since taken s).2 := by
  unfold serveWrite
  dsimp only
  split
  · split
    · exact noteHalf_keeps ..
    · exact keeps_trans (noteHalf_keeps ..) (putWrite_keeps _ t rank segs _ _ _ taken j h)
  · split
    · unfold offWrite
      exact keeps_trans (noteHalf_keeps ..)
        (onlyReports_keeps j (onlyReports_trans (onlyReports_trans (memBit_onlyReports ..) (onlyLogs_onlyReports (bump_onlyLogs ..)))
          (onlyLogs_onlyReports (log1_onlyLogs ..))))
    · exact keeps_trans (noteHalf_keeps ..) (putWrite_keeps _ t rank segs _ _ _ taken j h)

theorem sheetCheckRead_frame (t n : Nat) :
    ∃ x e u, OnlyLogs s u ∧ sheetCheckRead t n s = { u with mem := { u.mem with sheets := x, ecc := e } } := by
  unfold sheetCheckRead
  dsimp only
  split <;> exact ⟨_, _, _, eccRead_onlyLogs .., rfl⟩

/-- An export leaves every byte of every memory. -/
theorem exportSheet_frame (t n : Nat) :
    ∃ x e u, OnlyLogs s u ∧ (exportSheet s t n).1 = { u with mem := { u.mem with sheets := x, ecc := e } } := by
  obtain ⟨x, e, u, hu, h⟩ := sheetCheckRead_frame s t n
  unfold exportSheet
  dsimp only
  rw [h]
  split <;> exact ⟨_, _, u, hu, rfl⟩

/-! ### HBM (R152, R404) -/

/-- A codeword written anew loses its errors, and nothing else changes. -/
theorem freshCode_frame (w : Nat) : ∃ e, freshCode w s = { s with mem := { s.mem with ecc := e } } := ⟨_, rfl⟩

theorem freshCodes_frame (v w : Nat) : ∃ e, freshCode v (freshCode w s) = { s with mem := { s.mem with ecc := e } } := by
  obtain ⟨e, h⟩ := freshCode_frame s w
  obtain ⟨e', h'⟩ := freshCode_frame { s with mem := { s.mem with ecc := e } } v
  exact ⟨e', by rw [h, h']⟩

/-- A commit writes the bytes of its sheet and its check. -/
theorem hbmPut_frame (pa : Nat) (d : Bytes) (c : Word) :
    ∃ e, s.hbmPut pa d c = { s with mem := { s.mem with ecc := e, hbm := mwrite s.mem.hbm (pa / 256 * 256) (d.take 256),
                                                        hbmChk := tset zeroChk s.mem.hbmChk (pa / 256 * 256 / 256) c } } := by
  obtain ⟨e, h⟩ := freshCodes_frame s (pa / 256 * 256 / 128 + 1) (pa / 256 * 256 / 128)
  exact ⟨e, by unfold State.hbmPut; dsimp only; rw [h]⟩

@[simp] theorem hbmCheck_hbmPut (pa : Nat) (d : Bytes) (c : Word) : (s.hbmPut pa d c).hbmCheck pa = c := by
  unfold State.hbmCheck State.hbmPut
  dsimp only
  rw [Nat.mul_div_cancel _ (by decide)]
  exact tget_tset_same ..

/-- Bytes that the device writes itself change those bytes, and the checks of the sheets they lie in. -/
theorem hbmBytes_frame (pa : Nat) (d : Bytes) :
    ∃ e k, s.hbmBytes pa d = { s with mem := { s.mem with ecc := e, hbm := mwrite s.mem.hbm pa d, hbmChk := k } } := by
  unfold State.hbmBytes
  generalize rangeFrom (pa / 256) ((pa + d.length + 255) / 256 - pa / 256) = l
  suffices h : ∀ (l : List Nat) (u : State),
      (∃ e k, u = { s with mem := { s.mem with ecc := e, hbm := mwrite s.mem.hbm pa d, hbmChk := k } }) →
      ∃ e k, l.foldl (fun s n =>
        let s := freshCode (2 * n + 1) (freshCode (2 * n) s)
        { s with mem := { s.mem with hbmChk := tset zeroChk s.mem.hbmChk n (crc32c (s.hbmSheet (n * 256))) } }) u =
        { s with mem := { s.mem with ecc := e, hbm := mwrite s.mem.hbm pa d, hbmChk := k } } from
    h l _ ⟨s.mem.ecc, s.mem.hbmChk, rfl⟩
  intro l
  induction l with
  | nil => exact fun u h => h
  | cons n r ih =>
    rintro u ⟨e, k, rfl⟩
    obtain ⟨e', h'⟩ := freshCodes_frame { s with mem := { s.mem with ecc := e, hbm := mwrite s.mem.hbm pa d, hbmChk := k } }
      (2 * n + 1) (2 * n)
    refine ih _ ?_
    dsimp only
    rw [h']
    exact ⟨_, _, rfl⟩

/-! ### Program slots and commands of the host (R354, R356, R359) -/

/-- A slot changes its state: the bit and the vector of its owner tell, and nothing else changes. -/
theorem slotTo_frame (k : Nat) (st : SlotState) :
    (s.slotTo k st).slot k = { s.slot k with state := st } ∧ (∀ j, k ≠ j → (s.slotTo k st).slot j = s.slot j) ∧
      ∃ sl r i m, s.slotTo k st = { s with slots := sl, regs := r, irq := i, msixPend := m } := by
  unfold State.slotTo
  dsimp only
  split
  · exact ⟨slot_setSlot .., fun j h => slot_setSlot_other _ _ h, _, _, _, _, rfl⟩
  · exact ⟨slot_setSlot .., fun j h => slot_setSlot_other _ _ h, _, _, _, _, rfl⟩

theorem enqueue_frame (x : Compl) : ∃ h, enqueue x s = { s with host := h } := by
  unfold enqueue
  split
  · exact ⟨_, rfl⟩
  · split <;> exact ⟨_, rfl⟩

theorem settleQueue_frame (f q : Nat) : ∃ h, settleQueue f q s = { s with host := h } := by
  unfold settleQueue
  dsimp only
  split <;> exact ⟨_, rfl⟩

/-- The end of a command touches the queue machinery, and the status register of its function where DMA failed. -/
theorem finishCmd_frame (c : HostCmd) (status slot i0 i1 i2 : Nat) :
    ∃ h r, finishCmd c status slot i0 i1 i2 s = { s with host := h, regs := r } := by
  unfold finishCmd
  dsimp only
  have step : ∀ u : State, (∃ h r, u = { s with host := h, regs := r }) →
      ∃ h r, settleQueue c.fn.val c.q.val u = { s with host := h, regs := r } := by
    intro u hu
    obtain ⟨h, r, rfl⟩ := hu
    obtain ⟨h', e⟩ := settleQueue_frame { s with host := h, regs := r } c.fn.val c.q.val
    exact ⟨h', r, e⟩
  have enq : ∀ (u : State) x, (∃ h r, u = { s with host := h, regs := r }) →
      ∃ h r, enqueue x u = { s with host := h, regs := r } := by
    intro u x hu
    obtain ⟨h, r, rfl⟩ := hu
    obtain ⟨h', e⟩ := enqueue_frame { s with host := h, regs := r } x
    exact ⟨h', r, e⟩
  apply step
  have base : ∃ h r, (if status = 5 then aerError c.fn.val c.haddr.toNat
      (({ s with host := { s.host with accepted := s.host.accepted.eraseP (endsAs s.host.accepted c),
                                       waits := s.host.waits.eraseP fun w => w.2 == c } } : State).setBits (Reg.fn c.fn.val 0) 2)
      else { s with host := { s.host with accepted := s.host.accepted.eraseP (endsAs s.host.accepted c),
                                          waits := s.host.waits.eraseP fun w => w.2 == c } }) = { s with host := h, regs := r } := by
    split
    · exact ⟨_, _, rfl⟩
    · exact ⟨_, _, rfl⟩
  obtain ⟨h, r, e⟩ := base
  rw [e]
  split
  · split
    · split
      · exact ⟨_, _, rfl⟩
      · exact ⟨_, _, rfl⟩
    · exact enq _ _ ⟨_, _, rfl⟩
  · exact enq _ _ ⟨_, _, rfl⟩

end Sys2Proof.Machine
end

