-- ==== Sys2Proof/Tests/Slice0.lean ====
section
/-!
SUPPORT. Tests of the model on small states: which commands are ill-formed, slot words read as the spec's tables
encode them, and single commands whose result the spec gives.
-/
namespace Sys2Proof.Tests

open Sys2Proof Sys2Proof.Machine

-- The evaluations below run one after the other: each waits for the kernel, and side by side they hold too many threads.
set_option Elab.async false

/-- Tile 0, predicate p0: always executes. -/
def u0 : Site := ⟨0, false, 0⟩
/-- Tile 0, with PNEG on p0: never executes. -/
def uOff : Site := ⟨0, true, 0⟩

/-- A program runs on the grid in slot 0 with every polder ACTIVE; tile 0 is as given. -/
def onGrid (x : Tile) : State :=
  { slots := [(0, { state := .running, owner := some 0 })], tiles := [(0, x)], regs := { val := [(Reg.CLK_POLDER_STATE, 0)] } }

/-- The next state, if the outcome is one. -/
def next? : Res → Option State
  | .next t => some t
  | _ => none

/-! ### Ill-formed commands (R235, R247, R277, R286, R301, R353) -/

def badFlit : LinkFlit := ⟨0, [0], 0, 0⟩
def badCmd : HostCmd := ⟨0, 0, 0x01, 0, 0, 0, 0, 0, 0, 0, [0]⟩

theorem test_wf_delay_zero : (Instr.delay u0 0).wf = false := by decide
theorem test_wf_delay_one : (Instr.delay u0 1).wf = true := by decide
theorem test_wf_felt_no_lane : (Instr.feltInject u0 0 0 0 0 false false).wf = false ∧
    (Instr.feltRemove u0 0 true 0).wf = false ∧ (Instr.feltCopy u0 0 0).wf = false := by decide
theorem test_wf_vcvt_widening_rounds : (Instr.vcvt u0 0 0 .bf16 true .up).wf = false := by decide
theorem test_wf_flit_payload : (Instr.linkNull 0 badFlit .clean).wf = false ∧ (Instr.linkWrite 0 badFlit .clean).wf = false ∧
    (Instr.linkAccWrite 0 badFlit .clean).wf = false ∧ (Instr.linkRead 0 badFlit .clean).wf = false ∧
    (Instr.linkReadResp 0 badFlit .clean).wf = false ∧ (Instr.linkTide 0 badFlit .clean).wf = false ∧
    (Instr.linkDoorbell 0 badFlit .clean).wf = false ∧ (Instr.linkMgmtIdent 0 badFlit .clean).wf = false ∧
    (Instr.linkMgmtFailover 0 badFlit .clean).wf = false ∧ (Instr.linkReservedFlit 0 badFlit .clean).wf = false := by decide
theorem test_wf_fec : Fec.wf ⟨545⟩ = false ∧ Fec.wf ⟨544⟩ = true ∧ (Instr.linkNull 0 (⟨0, [], 0, 0⟩) ⟨545⟩).wf = false := by decide
theorem test_wf_command_argument : (Instr.admitCmd badCmd).wf = false ∧ (Instr.start badCmd).wf = false ∧
    (Instr.preempt badCmd).wf = false ∧ (Instr.resume badCmd).wf = false ∧ (Instr.release badCmd).wf = false ∧
    (Instr.copyIn badCmd).wf = false ∧ (Instr.copyOut badCmd).wf = false ∧ (Instr.copyOutDeferred badCmd).wf = false ∧
    (Instr.abort badCmd).wf = false ∧ (Instr.quota badCmd).wf = false ∧ (Instr.reservedCommand badCmd).wf = false := by
  decide
/-- R357: the opcode of an entry names its command; RELEASE is 5, and 9 is the last that is not reserved. -/
theorem test_wf_command_opcode : (Instr.release ⟨0, 0, 5, 0, 0, 0, 0, 0, 0, 0, List.replicate 96 0⟩).wf = true ∧
    (Instr.release ⟨0, 0, 4, 0, 0, 0, 0, 0, 0, 0, List.replicate 96 0⟩).wf = false ∧
    (Instr.reservedCommand ⟨0, 0, 9, 0, 0, 0, 0, 0, 0, 0, List.replicate 96 0⟩).wf = false := by decide
theorem test_wf_aperture : (Instr.bar4Access true 0 2 [0]).wf = false ∧ (Instr.bar4Access false 0 2 []).wf = true := by decide
theorem test_wf_challenge_nonce : (Instr.challenge .doe []).wf = false ∧
    (Instr.getMeasurements .doe 0xFF true []).wf = false := by decide

/-! ### Slot words, bit by bit from the tables of R241, R243, R270, R277, R280, R285, R286, R290 -/

theorem test_decode_br : decodeSlot 0 0 0x06C00005 = .op (.br ⟨0, true, 3⟩ 5) := by decide
theorem test_decode_loop_i : decodeSlot 0 0 0x082027FF = .op (.loopI u0 2 9 1023) := by decide
theorem test_decode_wait_q : decodeSlot 0 0 0x140E0021 = .op (.waitQ u0 7 33) := by decide
theorem test_decode_tide : decodeSlot 0 0 0x20000FFF = .op (.tide 0 4095) := by decide
theorem test_decode_addi : decodeSlot 0 1 0x40065FFF = .op (.addi u0 3 5 0xFFF) := by decide
theorem test_decode_sub : decodeSlot 0 1 0x08022180 = .op (.sub u0 1 2 3) := by decide
theorem test_decode_pcmp : decodeSlot 0 1 0x80218F40 = .op (.pcmp u0 4 6 7 .geu) := by decide
theorem test_decode_mm_stream : decodeSlot 0 2 0x04022192 = .op (.mmStream u0 0 1 2 3 4 1 false) := by decide
theorem test_decode_mm_pwr_array_1 : decodeSlot 0 3 0x0C200000 = .op (.mmPwr u0 1 true) := by decide
theorem test_decode_felt_inject : decodeSlot 0 4 0x04148648 = .op (.feltInject u0 5 2 3 4 true false) := by decide
theorem test_decode_felt_remove : decodeSlot 0 4 0x08223E00 = .op (.feltRemove u0 8 true 31) := by decide
theorem test_decode_couch_drain : decodeSlot 0 5 0x042F0886 = .op (.couchDrain u0 1 0 15 1 2 3) := by decide
theorem test_decode_vfma : decodeSlot 0 6 0x10092071 = .op (.vfma u0 9 8 7 true) := by decide
theorem test_decode_vcvt : decodeSlot 0 6 0x60010A10 = .op (.vcvt u0 1 2 .bf16 false .stochastic) := by decide
theorem test_decode_v_lp : decodeSlot 0 6 0xC43F2140 = .op (.vLp u0 63 4 5) := by decide
theorem test_decode_mesh_send : decodeSlot 0 7 0x040221FE = .op (.meshSend u0 1 2 3 63) := by decide
theorem test_decode_q_push : decodeSlot 0 7 0x10128000 = .op (.qPush u0 2 10) := by decide
theorem test_decode_wv_pin : decodeSlot 0 7 0x2030443F = .op (.wvPin u0 6 1 2 63) := by decide
theorem test_decode_chain_run : decodeSlot 0 7 0xFC3FC000 = .op (.chainRun u0 255) := by decide
theorem test_decode_delay_zero : decodeSlot 0 0 0x10000000 = .reserved := by decide
theorem test_decode_reserved_opcode : decodeSlot 0 0 0x28000000 = .reserved := by decide
theorem test_decode_predicated_tide : decodeSlot 0 0 0x20400000 = .reserved := by decide
theorem test_decode_reserved_bit : decodeSlot 0 0 0x04000400 = .reserved := by decide
theorem test_decode_nop : decodeSlot 0 3 0 = .nop := by decide

/-! ### Single commands and operations, with results worked out from the rules -/

/-- R241: −1 + 1 wraps to 0 and becomes visible one cycle later. -/
theorem test_add_wraps :
    next? (exec (.add u0 3 1 2) (onGrid { g := [(1, 0xFFFFFFFF), (2, 1)] })) =
      some ({ onGrid { g := [(1, 0xFFFFFFFF), (2, 1)] } with sched := [(1, .gset 0 3 0)] }) := by decide +kernel
/-- R241: an arithmetic shift by 31 of the most negative word. -/
theorem test_sra_sign :
    next? (exec (.srai u0 4 1 31) (onGrid { g := [(1, 0x80000000)] })) =
      some ({ onGrid { g := [(1, 0x80000000)] } with sched := [(1, .gset 0 4 0xFFFFFFFF)] }) := by decide +kernel
/-- R237: a predicated-off operation changes nothing. -/
theorem test_predicated_off : next? (exec (.mul uOff 1 2 3) (onGrid {})) =
      some (onGrid {}) := by decide +kernel
/-- R247: a delay of 3 in cycle 0. -/
theorem test_delay_three :
    next? (exec (.delay u0 3) (onGrid { core := .running })) =
      some (onGrid { core := .delayed 3 }) := by decide +kernel
/-- R236: an empty bundle at address 7 is followed by address 8. -/
theorem test_empty_bundle :
    next? (exec (.bundleIssue 0) (onGrid { core := .running, pc := 7 })) =
      some (onGrid { core := .running, cur := 7, pc := 8, nextAt := 1 }) := by decide +kernel
/-- R52, R65, IEEE 754: 1 + 1 = 2; 1 / 0 is +∞ with AF_DZ; the largest finite value doubled overflows. -/
theorem test_fp_add : (fAdd fp32 0x3F800000 0x3F800000).1 = 0x40000000 := by decide +kernel
theorem test_fp_div_zero : (fDiv fp32 0x3F800000 0).1 = 0x7F800000 := by decide +kernel
theorem test_fp_overflow : (fAdd fp32 0x7F7FFFFF 0x7F7FFFFF).1 = 0x7F800000 := by decide +kernel
theorem test_fp_sqrt_two : (fSqrt fp32 0x40000000).1 = 0x3FB504F3 := by decide +kernel
/-- The check value of CRC-32C over the digits 1 to 9. -/
theorem test_crc32c : crc32c [0x31, 0x32, 0x33, 0x34, 0x35, 0x36, 0x37, 0x38, 0x39] = 0xE3069283 := by decide +kernel
/-- R14: a counter saturates. -/
theorem test_counter_saturates :
    ((({} : State).setReg Reg.ERR_CHECK_COUNT 0xFFFFFFFF).bump Reg.ERR_CHECK_COUNT 1).reg Reg.ERR_CHECK_COUNT = 0xFFFFFFFF := by decide +kernel
/-- R236, log entry 11: with no command waiting, a step is one cycle of the grid. -/
theorem test_idle_step_counts_a_tick : (match step {} with | .next t => t.ticks | _ => 0) = 1 := by decide +kernel
theorem test_step_takes_the_front :
    (match step { onGrid { core := .running } with pending := [.delay u0 3, .add u0 1 1 1] } with
      | .next t => t.pending
      | _ => []) = [.add u0 1 1 1] := by decide +kernel

/-- R444: three records of one cycle are numbered by code, then by source. -/
theorem test_records_of_a_cycle :
    (inOneCycle (fun s => ((s.log1 Ev.HAZARD 5 []).log1 Ev.QUEUE_HALT 5 []).log1 Ev.HAZARD 2 []) {}).log.recs.map
      (fun e => (e.2.seq, e.2.code.toNat, e.2.src)) = [(1, 0x0303, 5), (2, 0x0901, 2), (3, 0x0901, 5)] := by decide +kernel

end Sys2Proof.Tests
end

