-- ==== Sys2Proof/Tests/Witness.lean ====
section
/-!
SUPPORT. For every statement that has hypotheses, states and operands that meet them together, clause by clause, at
values where the clauses begin and end.
-/
namespace Sys2Proof.Tests

open Sys2Proof Sys2Proof.Machine

-- The evaluations below run one after the other: each waits for the kernel, and side by side they hold too many threads.
set_option Elab.async false

/-- Tile 0 holds words in g1, g2 and so on. -/
def regs (l : List Nat) : Tile := { g := (l.zipIdx.map fun p => (p.2 + 1, BitVec.ofNat 32 p.1)) }

/-- A debug image runs in slot 0. -/
def onDebug (x : Tile) : State :=
  { slots := [(0, { state := .running, owner := some 0, debug := true })], tiles := [(0, x)],
    regs := { val := [(Reg.CLK_POLDER_STATE, 0)] } }

/-- The slot on the grid is stopping. -/
def onStopping (x : Tile) : State := { slots := [(0, { state := .stopping, owner := some 0 })], tiles := [(0, x)] }

/-! ### A cycle of the grid -/

/-- Effects of every kind in tile 2303, due in this cycle, and one that is not. -/
def dueState : State :=
  { onGrid {} with
    sched := [(0, .gset 2303 31 4), (0, .gset 2303 31 5), (0, .pset 2303 0 false), (0, .pset 2303 7 true), (0, .vset 2303 31 (List.replicate 32 1)),
              (0, .flags 2303 0x80), (1, .gset 2303 31 6)] }
theorem wit_CycleEffects_due : (∀ e ∈ dueState.dueNow, e.plain = true) ∧ dueState.pending = [] ∧
    dueState.dueNow = [.gset 2303 31 4] ++ .gset 2303 31 5 :: (dueState.dueNow.drop 2) ∧ (∀ e ∈ dueState.dueNow.drop 2, e ≠ .gset 2303 31 4 ∧ e ≠ .gset 2303 31 5) ∧
    dueState.dueNow = dueState.dueNow.take 2 ++ .pset 2303 0 false :: dueState.dueNow.drop 3 ∧
    dueState.dueNow = dueState.dueNow.take 4 ++ .vset 2303 31 (List.replicate 32 1) :: dueState.dueNow.drop 5 ∧
    (List.replicate 32 (1 : Word)).length = 32 ∧ Effect.flags 2303 0x80 ∈ dueState.dueNow ∧ (0x80 : Byte).getLsbD 7 = true := by decide
/-- The last 128 bytes of a store, of which one bank is taken. -/
theorem wit_CycleEffects_served : let s : State := { onGrid {} with mem := { used := [(0, [30])] } }
    (∀ G ∈ granules 0x2FF80 (List.replicate 128 (1 : Byte)).length, s.closedTo 0 (bankOf G) 0 = false) ∧ 2 < 8 ∧
    (∃ G ∈ granules 0x2FF80 128, bankOf G ∈ s.usedBanks 0) ∧ (∃ G ∈ granules 0x2FF80 128, bankOf G ∉ s.usedBanks 0) ∧
    0x2FFFC % 4 = 0 ∧ 0x2FF80 % 128 = 0 := by decide +kernel
def quietState (acc : List Access) (sched : List (Nat × Effect)) : State := { onGrid {} with mem := { acc := acc }, sched := sched }
theorem wit_Quiet (acc : List Access) (sched : List (Nat × Effect)) : Quiet (quietState acc sched) := by
  refine ⟨rfl, rfl, rfl, rfl, rfl, rfl, rfl, rfl, rfl, rfl, rfl, rfl, ?_, ?_⟩
  · intro k h
    have hk : k = 0 := (Option.some.inj (show some 0 = some k from h)).symm
    subst hk
    exact ⟨rfl, (by decide : ((onGrid {}).slot 0).modules ≤ 1)⟩
  · intro e he
    have := List.mem_singleton.mp he
    subst this
    exact ⟨rfl, rfl, rfl⟩
theorem wit_CycleEffects_step :
    (let s := quietState [] [(1, .gset 0 31 5), (2, .gset 0 31 6)]
     s.mem.acc = [] ∧ ∀ e ∈ s.sched, e.1 ≤ s.cycle + 1 → e.2.plain = true) ∧
    (let s := quietState [.write 0 9 0 [(0x2FFFC, [1, 2, 3, 4])] 0 0 0] []
     s.mem.acc = [.write 0 9 0 [(0x2FFFC, [1, 2, 3, 4])] 0 0 0] ∧ s.sched = [] ∧ 0 < 8 ∧
     ∀ G ∈ granules 0x2FFFC 4, s.closedTo 0 (bankOf G) 0 = false) ∧
    (let s := quietState [.read 0 9 0 [(0x2FFFC, 4)] (.greg 31 5)] []
     s.mem.acc = [.read 0 9 0 [(0x2FFFC, 4)] (.greg 31 5)] ∧ s.sched = [] ∧ 0x2FFFC % 4 = 0 ∧ s.cycle + 1 < 5 ∧
     s.closed 0 (bankOf (0x2FFFC / 8)) = false) := by decide +kernel

theorem wit_PredicatedOff : (Instr.add uOff 1 2 3).site = some uOff ∧ (Instr.add uOff 1 2 3).wf = true ∧
    ({} : State).on uOff = false := by decide
/-- The hypothesis of ScalarOperations and ScalarReadsAndPredicates. -/
theorem wit_executes : ({} : State).on u0 = true ∧ (onGrid {}).on u0 = true := by decide
theorem wit_PredicateRegisters : (7 : PReg) ≠ 0 ∧ wfld 0x20400000 31 26 = 0x08 ∧ wfld 0x20400000 25 22 ≠ 0 ∧
    wfld 0x26000000 31 26 = 0x09 ∧ wfld 0x26000000 25 22 ≠ 0 := by decide

/-- The address of a scalar access: 0x2FFFF lies in the store, 0x2FFFC is aligned, 0x30000 lies outside. -/
theorem wit_ScalarMemory :
    (((onGrid (regs [0x2FFFF])).tile 0).gr 1 + (0 : BitVec 12).signExtend 32).toNat < 0x30000 ∧
    (((onGrid (regs [0x2FFFC])).tile 0).gr 1 + (0 : BitVec 12).signExtend 32).toNat % 4 = 0 ∧
    0x30000 ≤ (((onGrid (regs [0x2FFFF])).tile 0).gr 1 + (1 : BitVec 12).signExtend 32).toNat := by decide

/-! ### Bundles and the C slot -/

theorem wit_NoopBundle (pc : Nat) (br : Option Nat) (l : Tbl Loop) (h : pc < 1023) :
    NoopBundle (onGrid { core := .running, pc := pc, brTarget := br, loops := l }) 0 := by
  refine ⟨rfl, h, fun _ _ => rfl, fun _ _ => rfl⟩

theorem wit_Bundles_next : let x : Tile := { core := .running, pc := 1022, loops := [(3, ⟨true, 0, 1021, 2⟩)] }
    NoopBundle (onGrid x) 0 ∧ x.brTarget = none ∧ ∀ k, k < 4 → (x.loop k).active = true → (x.loop k).stop ≠ x.pc :=
  ⟨wit_NoopBundle 1022 none _ (by decide), rfl, by decide⟩
theorem wit_Bundles_loop_end : let x : Tile := { core := .running, pc := 1022, loops := [(3, ⟨true, 1023, 1022, 1⟩)] }
    NoopBundle (onGrid x) 0 ∧ x.brTarget = none ∧ (x.loop 3).active = true ∧ (x.loop 3).stop = x.pc ∧
      (x.loop 3).start < 1024 ∧ ∀ j, j < 4 → j ≠ 3 → (x.loop j).active = true → (x.loop j).stop ≠ x.pc :=
  ⟨wit_NoopBundle 1022 none _ (by decide), by decide⟩
theorem wit_Bundles_branch : let x : Tile := { core := .running, pc := 0, brTarget := some 1023 }
    NoopBundle (onGrid x) 0 ∧ x.brTarget = some 1023 ∧ 1023 < 1024 :=
  ⟨wit_NoopBundle 0 (some 1023) _ (by decide), rfl, by decide⟩

/-- The bundle at 0 holds addi g1 = g2 + 1 in its S slot. -/
def oneAdd : Tile := { core := .running, imem := [(1, 0x40022001)] }
theorem wit_Bundles_operation : let s := onGrid oneAdd
    let x := s.tile 0
    mayIssue s 0 = true ∧ x.pc < 1023 ∧ x.brTarget = none ∧ (∀ k, k < 4 → (x.loop k).active = false) ∧
    (∀ k, k < 8 → k ≠ 1 → slotWord s 0 x.pc k = 0) ∧
    (∀ k, k < 4 → tget 0 s.mem.ecc (eccKey placeImem (0 * 4096 + 4 * x.pc + k)) = 0) ∧
    decodeSlot 0 1 (slotWord s 0 x.pc 1) = .op (.addi u0 1 2 1) := by decide
theorem wit_Bundles_operation_result : ∃ s', exec (.addi u0 1 2 1) ((onGrid oneAdd).setTile 0 { oneAdd with cur := 0 }) = .next s' ∧
    (s'.tile 0).core = .running ∧ s'.cycle = 0 ∧ (∀ k, k < 4 → ((s'.tile 0).loop k).active = false) ∧
    (s'.tile 0).brTarget = none := ⟨_, rfl, by decide⟩

theorem wit_BranchesAndLoops : let x := (onGrid { regs [1, 0] with loops := [(1, ⟨true, 5, 9, 3⟩)] }).tile 0
    (∃ k ≤ 1, (x.loop k).active = true ∧ (4 < (x.loop k).start ∨ (x.loop k).stop < 4)) ∧
    (¬ ∃ k ≤ 3, (x.loop k).active = true ∧ (5 < (x.loop k).start ∨ (x.loop k).stop < 5)) ∧
    0 < (1 : Fin 1024).val ∧ (0 : Fin 1024).val = 0 ∧ x.gr 1 ≠ 0 ∧ x.gr 2 = 0 := by decide

theorem wit_DelayTideAndEnd : (1 : BitVec 16) ≠ 0 ∧ (0xFFFF : BitVec 16) ≠ 0 ∧
    ((onGrid { core := .delayed 0 }).tile 0).core = .delayed 0 ∧ 0 ≤ (onGrid { core := .delayed 0 }).cycle ∧
    ((onGrid { core := .delayed 1 }).tile 0).core = .delayed 1 ∧ (onGrid { core := .delayed 1 }).cycle < 1 := by decide

theorem wit_Waits_hold : let s := onGrid { core := .running }
    s.on u0 = true ∧ s.held = false ∧ (s.tag 0 63).count = 0 ∧ (∀ j, j < 64 → (s.tag 0 j).count = 0) ∧
    ((s.tile 0).gr 0).toNat ≤ s.cycle := by decide
theorem wit_Waits_stand : let s : State := { onGrid (regs [1]) with que := { tags := [(5, { count := 1 })] } }
    s.on u0 = true ∧ s.held = false ∧ (s.tag 0 5).count ≠ 0 ∧ (∃ j, j < 64 ∧ (s.tag 0 j).count ≠ 0) ∧
    s.cycle < ((s.tile 0).gr 1).toNat := ⟨rfl, rfl, by decide, ⟨5, by decide⟩, by decide⟩
theorem wit_Waits_stopping : (onStopping {}).held = true ∧ (onStopping {}).on u0 = true ∧
    ((onGrid { core := .running, mates := [(1, 0)] }).tile 0).mates = [(1, 0)] ∧
    ((onGrid { core := .ended }).tile 0).core = .ended ∧ ((onGrid { core := .delayed 7 }).tile 0).core = .delayed 7 := by decide

theorem wit_Waits_complete : (onGrid {}).held = false ∧
    ((onGrid { core := .waitTag 3 4 0 }).tile 0).core = .waitTag 3 4 0 ∧ ((onGrid { core := .waitTag 3 4 0 }).tag 0 3).count = 0 ∧
    ((onGrid { core := .waitAll 0 }).tile 0).core = .waitAll 0 ∧
    ((onGrid { core := .waitCyc 0 4 0 }).tile 0).core = .waitCyc 0 4 0 ∧ 0 ≤ (onGrid { core := .waitCyc 0 4 0 }).cycle ∧
    ((onGrid { core := .waitCyc 1 4 0 }).tile 0).core = .waitCyc 1 4 0 ∧ (onGrid { core := .waitCyc 1 4 0 }).cycle < 1 := by
  decide
theorem wit_Waits_complete_all : ∀ j, j < 64 → ((onGrid { core := .waitAll 0 }).tag 0 j).count = 0 := by decide

/-! ### Banks -/

/-- Banks 0 (ON), 1 (RET) and 31 (OFF) are named by g1. -/
def banked : State := onGrid { regs [0x80000003] with banks := [(1, { pwr := .ret }), (31, { pwr := .off })] }
theorem wit_TsBank : banked.on u0 = true ∧ (banked.tile 0).gr 1 ≠ 0 ∧
    ∀ b, b < 32 → ((banked.tile 0).gr 1).getLsbD b = true →
      (banked.bank 0 b).req = none ∧ ((banked.bank 0 b).pwr = .on ∨ (banked.bank 0 b).pwr = .ret ∨ (banked.bank 0 b).pwr = .off) := by
  decide

/-- Bank 2 is named too, and an earlier ts.bank holds it; bank 31 is filled when it goes to ON. -/
theorem wit_TsBank_held :
    let s := onGrid { regs [0x80000007] with banks := [(1, { pwr := .ret }), (2, { pwr := .ret, req := some (.off, 5, 1) }), (31, { pwr := .off })] }
    (∀ b, b < 32 → ((s.tile 0).gr 1).getLsbD b = true → (s.bank 0 b).pwr = .on ∨ (s.bank 0 b).pwr = .ret ∨ (s.bank 0 b).pwr = .off) ∧
    (s.bank 0 2).req ≠ none ∧ ((s.tile 0).gr 1).getLsbD 2 = true ∧ ((s.tile 0).gr 1).getLsbD 31 = true ∧ (s.bank 0 31).req = none ∧
    (s.bank 0 31).pwr = .off ∧ bankOf 31 = 31 ∧
    ∀ b, b < 32 → ¬ (((onGrid (regs [0])).tile 0).gr 1).getLsbD b = true ∧ ((onGrid (regs [0])).bank 0 b).req ≠ some (.ret, 5, 1) := by decide +kernel

def bankGoing (p : Pwr) : State := onGrid { banks := [(31, { pwr := p, closedAt := some 0, req := some (.ret, 5, 1) })] }
theorem wit_BankTransitions_entry : ((bankGoing .on).bank 0 31).req = some (.ret, 5, 1) ∧ BankTarget.ret ≠ .on ∧
    ((bankGoing .on).bank 0 31).pwr = .on ∧ (bankGoing .on).accepted 0 31 = 0 := by decide +kernel
theorem wit_BankTransitions_busy :
    let s : State := { bankGoing .on with mem := { acc := [.write 0 0 0 [(8 * 31, [1])] 1 0 0] } }
    let s := s.setBank 0 31 { s.bank 0 31 with closedAt := some 1 }
    (s.bank 0 31).req = some (.ret, 5, 1) ∧ (s.bank 0 31).pwr = .on ∧ s.accepted 0 31 ≠ 0 := by decide +kernel
theorem wit_BankTransitions_end : let s := bankGoing (.entering true 0)
    0 ≤ s.cycle ∧ (s.bank 0 31).req = some (.ret, 5, 1) ∧ (s.bank 0 31).pwr = .entering true 0 ∧
    ∀ k, k < 32 → k ≠ 31 →
      (s.bank 0 k).req = none ∧ ((s.bank 0 k).pwr = .on ∨ (s.bank 0 k).pwr = .ret ∨ (s.bank 0 k).pwr = .off) := by decide

/-! ### The arrays -/

theorem wit_ArrayControl : let s := onGrid {}
    s.on u0 = true ∧ s.chainBusy 0 (slotM 0) = false ∧ s.chainBusy 0 (slotM 1) = false ∧ ((s.tile 0).arr 0).pwr = .on ∧
    ((onGrid { arr1 := { pwr := .off } }).tile 0 |>.arr 1).pwr = .off ∧
    ((onGrid { arr0 := { pwr := .exiting 0 } }).tile 0 |>.arr 0).pwr = .exiting 0 ∧
    ((onGrid { arr0 := { pwr := .exiting 1 } }).tile 0 |>.arr 0).pwr = .exiting 1 := by decide
theorem wit_ArrayControl_gates : let s : State := { onGrid { vLast := some 0 } with cycle := 17 }
    16 ≤ s.cycle ∧ (∀ k, (((s.tile 0).arr 0).set k).ready = none) ∧ streamBusy ((s.tile 0).arr 0) s.cycle = false ∧
    (s.tile 0).vLast = some 0 ∧ 0 + 16 < s.cycle ∧
    (let s : State := { onGrid { vLast := some 0 } with cycle := 16 }; (s.tile 0).vLast = some 0 ∧ s.cycle ≤ 0 + 16) ∧
    ((onGrid { arr1 := { pwr := .off } }).tile 0 |>.arr 1).pwr.namesOff = true ∧
    ((onGrid {}).tile 0 |>.arr 1).pwr.namesOff = false := by
  decide

/-- Array 0 is configured for BF16 by BF16; g1–g4 are addresses. -/
def arrayWord : Word := 0x88000000
theorem wit_Streams : let s := onGrid { regs [0, 0, 0x8000, 0] with arr0 := { cfg := arrayWord } }
    let x := s.tile 0
    s.on u0 = true ∧ s.chainBusy 0 (slotM 0) = false ∧ (x.arr 0).pwr = .on ∧
    streamOk (x.arr 0).cfg (x.gr 1) (x.gr 2) (x.gr 3) (x.gr 4) = true := by decide +kernel

def oneStream (e : Option Nat) : Stream := { cfg := arrayWord, endedAt := e }
theorem wit_Streams_complete : let s : State := { onGrid { arr0 := { streams := [oneStream none] } } with cycle := 1000 }
    ((s.tile 0).arr 0).streams = oneStream none :: [] ∧ (oneStream none).done s.cycle = true ∧
    (oneStream none).done 0 = false := by decide +kernel

/-! ### The Felt -/

theorem wit_FeltOperations : let s := onGrid (regs [0x2FFE0, 0x2FF80, 1])
    s.on u0 = true ∧ (0xF : BitVec 4) ≠ 0 ∧ ((s.tile 0).gr 2).toNat % 32 = 0 ∧ ((s.tile 0).gr 2).toNat + 32 * 4 ≤ 0x30000 ∧
    ¬ (((s.tile 0).gr 1).toNat % 32 = 0 ∧ ((s.tile 0).gr 1).toNat + 32 * 4 ≤ 0x30000) ∧
    ((s.tile 0).gr 3).toNat % 32 ≠ 0 ∧
    ((s.tile 0).gr 1).toNat % 32 = 0 ∧ ((s.tile 0).gr 1).toNat + 32 ≤ 0x30000 ∧
    (s.sheet 0 (((s.tile 0).gr 1).toNat / 256)).opn = false ∧ ((s.tile 0).gr 3).toNat + 4 ≤ 0x30000 ∧ s.mem.ecc = [] := by decide

def someInj : FeltInj := ⟨0, 3, 0, 2, 15, 1, true, false, 5, 0x7F, List.replicate 32 1, (0, 0)⟩
def someWord : FeltWord := ⟨(feltPos 0 0).1, 3, feltPhase 0 0 0, 1, true, false, 5, 0x7F, List.replicate 32 1, some (0, 0), (0, 0)⟩
theorem wit_FeltRouter_places : let s : State := { onGrid {} with felt := { inj := [someInj] } }
    someInj.tile = 0 ∧ someInj.lane = 3 ∧ someInj.cyc = s.cycle ∧ s.feltAt 0 3 = none ∧
    (∀ j ∈ s.felt.inj, j = someInj ∨ ¬ (j.tile = 0 ∧ j.lane = 3 ∧ j.cyc = s.cycle)) ∧
    (s.felt.inj.filter fun j => j == someInj) = [someInj] ∧
    (∀ r ∈ s.felt.removals, ¬ (r.tile = 0 ∧ r.lane = 3)) ∧ (∀ r ∈ s.felt.takes, r.tile ≠ 0) ∧
    (∀ g ∈ s.felt.gathers, g.tile ≠ 0) ∧ anyTap (s.tile 0) 3 s.cycle = false ∧ s.debug = false := by decide +kernel
theorem wit_FeltRouter_passes : let s : State := { onGrid {} with felt := { words := [someWord] } }
    (s.feltAt 0 3).isSome = true ∧
    (∀ r ∈ s.felt.removals, ¬ (r.tile = 0 ∧ r.lane = 3 ∧ r.cyc = s.cycle)) ∧
    (∀ j ∈ s.felt.inj, ¬ (j.tile = 0 ∧ j.lane = 3 ∧ j.cyc = s.cycle)) ∧
    (∀ k ∈ s.felt.takes, ¬ (k.tile = 0 ∧ k.lane = 3 ∧ k.cyc = s.cycle)) ∧
    (∀ g ∈ s.felt.gathers, ¬ (g.tile = 0 ∧ g.cyc = s.cycle)) ∧ anyTap (s.tile 0) 3 s.cycle = false := by decide +kernel
theorem wit_FeltRouter_removes :
    let s : State := { onGrid {} with felt := { words := [someWord], removals := [⟨0, 3, 0⟩] } }
    (∃ r ∈ s.felt.removals, r.tile = 0 ∧ r.lane = 3 ∧ r.cyc = s.cycle) ∧ (s.feltAt 0 3).isSome = true ∧
    s.feltAt 0 3 = some someWord ∧ someWord.till = some (0, s.cycle) ∧ someWord.kind = 1 ∧
    (∀ r ∈ s.felt.removals, ¬ (r.tile = 1 ∧ r.lane = 3 ∧ r.cyc = s.cycle)) := by decide +kernel
/-- A loose word without the check of its data, and one that another removal is noted for. -/
theorem wit_FeltRouter_check : let w : FeltWord := { someWord with kind := 2 }
    w.kind ≠ 1 ∧ crc4 w.data ≠ w.chk ∧ w.till = some (0, 0) ∧
    (let v : FeltWord := { w with chk := crc4 w.data }; v.kind ≠ 1 ∧ crc4 v.data = v.chk) ∧
    (let v : FeltWord := { w with till := some (0, 12) }
     let s : State := { onGrid {} with felt := { words := [v], removals := [⟨0, 3, 0⟩] } }
     s.feltAt 0 3 = some v ∧ v.till ≠ some (0, s.cycle)) := by decide +kernel

theorem wit_FeltRouter_hop_errors : let s : State := { onGrid {} with felt := { words := [someWord] } }
    s.feltAt 0 3 ≠ none ∧ (onGrid {}).feltAt 0 3 = none ∧ (∀ w ∈ s.felt.words, (w.flip 0).flip 255 ≠ w) := by decide +kernel

/-! ### The Couch -/

theorem wit_DescriptorReads : let s := onGrid (regs [0x2FFC0, 0x2FFE0, 0x30000, 1])
    s.on u0 = true ∧ s.chainBusy 0 slotD = false ∧ ((s.tile 0).gr 1).toNat % 64 = 0 ∧ ((s.tile 0).gr 1).toNat + 64 ≤ 0x30000 ∧
    ((s.tile 0).gr 2).toNat % 32 = 0 ∧ ((s.tile 0).gr 2).toNat + 32 ≤ 0x30000 ∧
    ¬ (((s.tile 0).gr 2).toNat % 64 = 0 ∧ ((s.tile 0).gr 2).toNat + 64 ≤ 0x30000) ∧
    ¬ (((s.tile 0).gr 3).toNat % 32 = 0 ∧ ((s.tile 0).gr 3).toNat + 32 ≤ 0x30000) ∧
    ¬ (((s.tile 0).gr 4).toNat % 32 = 0 ∧ ((s.tile 0).gr 4).toNat + 32 ≤ 0x30000) := by decide

theorem wit_CouchDrain : let s := onGrid {}
    s.on u0 = true ∧ s.chainBusy 0 slotD = false ∧
    drainOk (tget CouchEntry.zero (s.tile 0).couch 15) false ((s.tile 0).gr 1) ((s.tile 0).gr 2) ((s.tile 0).gr 3)
      ((s.tile 0).gr (Fin.ofNat 32 (3 + 1))) = true := by decide +kernel

/-- The output address is not aligned. -/
theorem wit_CouchDrain_out_of_range : let s := onGrid (regs [1])
    drainOk (tget CouchEntry.zero (s.tile 0).couch 15) false ((s.tile 0).gr 1) 0 0 0 = false := by decide +kernel

/-! ### The vector unit -/

/-- The hypotheses of VectorLanes, and of the other statements of the vector unit on an idle tile. -/
theorem wit_VectorUnit : let s := onGrid {}
    s.on u0 = true ∧ s.chainBusy 0 slotV = false ∧ (∀ k, (s.tile 0).longLast = some k → k + 4 ≤ s.cycle) ∧
    (∀ k, (s.tile 0).redLast = some k → k + 2 ≤ s.cycle) := by
  refine ⟨by decide, by decide, ?_, ?_⟩ <;> intro k h <;> cases h
theorem wit_VectorLongAndReduce :
    (let s : State := { onGrid { longLast := some 0, redLast := some 2 } with cycle := 4 }
     (s.tile 0).longLast = some 0 ∧ 0 + 4 ≤ s.cycle ∧ (s.tile 0).redLast = some 2 ∧ 2 + 2 ≤ s.cycle) ∧
    (let s : State := { onGrid { longLast := some 0, redLast := some 2 } with cycle := 3 }
     (s.tile 0).longLast = some 0 ∧ s.cycle < 0 + 4 ∧ (s.tile 0).redLast = some 2 ∧ s.cycle < 2 + 2) := by decide
theorem wit_VectorCompareAndConvert : RMode.stochastic ≠ .rne ∧ (unpack fp32 0x7FC00000).isNan = true ∧
    (unpack fp32 0x3F800000).isNan = false := by decide
theorem wit_VectorMovesAndSends : let s := onGrid (regs [0x2FF80, 0x30000, 0x8FF, 0x900])
    ((s.tile 0).gr 1).toNat % 128 = 0 ∧ ((s.tile 0).gr 1).toNat + 128 ≤ 0x30000 ∧
    ¬ (((s.tile 0).gr 2).toNat % 128 = 0 ∧ ((s.tile 0).gr 2).toNat + 128 ≤ 0x30000) ∧
    ((s.tile 0).gr 3).toNat % 4096 < 2304 ∧ ¬ ((s.tile 0).gr 4).toNat % 4096 < 2304 := by decide

/-! ### The mesh -/

theorem wit_MeshTransfers_routes : (0 : TileId) ≠ 2303 := by decide
theorem wit_MeshTransfers : let s := onGrid (regs [2303, 0x2C000, 704, 0x100, 705])
    let x := s.tile 0
    let len : Fin 64 := 63
    s.on u0 = true ∧ (x.gr 1).toNat < 2304 ∧ (x.gr 1).toNat ≠ 0 ∧ (x.gr 2).toNat % 256 = 0 ∧
    (x.gr 2).toNat + 256 * (len.val + 1) ≤ 0x30000 ∧ (x.gr 3).toNat + len.val + 1 ≤ 768 ∧ (x.gr 4).toNat % 256 = 0 ∧
    ¬ ((x.gr 5).toNat + len.val + 1 ≤ 768) ∧ ¬ (x.gr 1).toNat % 256 = 0 := by decide

def someFlit (dest : Nat) : Flit := { at_ := 0, cyc := 0, inp := 0, dest := dest, data := List.replicate 128 1 }
def withFlit (dest : Nat) : State := { onGrid {} with mesh := { flits := [someFlit dest] } }
theorem wit_MeshRouters_forward : let s := withFlit 1
    s.mesh.flits = [someFlit 1] ∧ (someFlit 1).at_ = 0 ∧ (someFlit 1).cyc ≤ s.cycle ∧ (someFlit 1).vc1 = false ∧
    (someFlit 1).edge = none ∧ (someFlit 1).kind = 0 ∧ outputTaken 0 (routePort 0 1) s = false ∧
    neighbour 0 (routePort 0 1) = some 1 ∧ s.seamShut 0 1 = false ∧ routePort 0 1 ≠ 0 := by decide
theorem wit_MeshRouters_deliver : let s := withFlit 0
    outputTaken 0 (routePort 0 0) s = false ∧ (someFlit 0).dest = 0 ∧ s.mesh.flits = [someFlit 0] := by decide
theorem wit_MeshRouters_taken : let s : State := { withFlit 1 with mesh := { flits := [someFlit 1], caps := [(2, [0])] } }
    outputTaken 0 (routePort 0 1) s = true ∧ s.mesh.flits = [someFlit 1] := by decide
/-- Tile 12 lies across a seam from tile 11; its polder is SHUT. A flit that came in by port 4. -/
theorem wit_MeshRouters_shut : let f : Flit := { someFlit 12 with at_ := 11, inp := mportCode .west }
    let s : State := { (onGrid {}).setReg Reg.CLK_POLDER_STATE 8 with mesh := { flits := [f] } }
    s.mesh.flits = [f] ∧ f.at_ = 11 ∧ outputTaken 11 (routePort 11 12) s = false ∧ neighbour 11 (routePort 11 12) = some 12 ∧
    s.seamShut 11 12 = true ∧ f.inp = mportCode .west ∧ f.inp ≠ 0 := by decide +kernel
def partialFlit (inp rid : Nat) : Flit := { someFlit 0 with vc1 := true, inp := inp, rid := rid, kind := 3 }
def withCtx (x : RCtx) (inp rid : Nat) : State := { onGrid {} with mesh := { flits := [partialFlit inp rid], rctx := [(7, x)] } }
theorem wit_MeshRouters_partial : let x : RCtx := { decl := true, ina := 2, inb := 4 }
    let full : RCtx := { x with qa := List.replicate 4 ([], 0, 0), qb := List.replicate 4 ([], 0, 0) }
    (partialFlit 2 7).inp < 8 ∧ (partialFlit 2 7).dest = 0 ∧ (partialFlit 2 7).vc1 = true ∧
    (withCtx x 2 7).ctx 0 7 = x ∧ x.ina = (partialFlit 2 7).inp ∧ x.inb ≠ (partialFlit 2 7).inp ∧ x.qa.length < 4 ∧
    x.inb = (partialFlit 4 7).inp ∧ x.ina ≠ (partialFlit 4 7).inp ∧ x.qb.length < 4 ∧
    ¬ (x.decl = true ∧ (x.ina = (partialFlit 3 7).inp ∨ x.inb = (partialFlit 3 7).inp)) ∧
    (withCtx full 2 7).ctx 0 7 = full ∧ 4 ≤ full.qa.length ∧ 4 ≤ full.qb.length := by decide

def someVFlit (dest : Nat) : VFlit := { dest := dest, kind := 0, src := 5, addr := 0x100, data := List.replicate 128 1, since := 0, born := 0 }
def withVFlit (dest : Nat) : State := { onGrid {} with mesh := { vbuf := [(0, [someVFlit dest])] } }
theorem wit_UnscheduledFlits : let s := withVFlit 1
    vHead s 0 (mportCode .loc) false = some (someVFlit 1, 2) ∧ vGranted s 0 (mportCode .loc) 2 false = true ∧
    vCredit s 0 2 (someVFlit 1) false = true ∧ neighbour 0 2 = some 1 ∧ s.seamShut 0 1 = false ∧ 1 < 2304 ∧
    vHead s 1 (mportCode .loc) false = none ∧ vGranted (withVFlit 0) 0 (mportCode .loc) 2 false = false := by decide +kernel
/-- The last flit of a sheet at its tile, the first, and a packet shorter than a flit. -/
theorem wit_UnscheduledFlits_deliver : let s (f : VFlit) : State := { onGrid {} with mesh := { vbuf := [(vKey 0 4 false, [f])] } }
    let ok (f : VFlit) : Bool := vHead (s f) 0 (mportCode .west) false == some (f, 0) && vGranted (s f) 0 (mportCode .west) 0 false &&
      vCredit (s f) 0 0 f false
    let f := someVFlit 0
    ok f = true ∧ f.data.length = 128 ∧ f.last = true ∧ ok { f with last := false } = true ∧ ok { f with data := [1] } = true ∧
    mportCode .west ≠ 0 := by decide +kernel
theorem wit_UnscheduledFlits_no_credit :
    let s : State := { onGrid {} with mesh := { vbuf := [(0, [someVFlit 1]), (vKey 1 4 false, List.replicate 8 (someVFlit 1))] } }
    vHead s 0 (mportCode .loc) false = some (someVFlit 1, 2) ∧ vCredit s 0 2 (someVFlit 1) false = false := by decide +kernel
theorem wit_MeshRouters_rctx :
    let s : State := { onGrid {} with mesh := { rctx := [(7, { decl := true, qa := [([1], 0, 0)], qb := [([2], 0, 0)] })] } }
    (s.ctx 0 7).qa = ([1], 0, 0) :: [] ∧ (s.ctx 0 7).qb = ([2], 0, 0) :: [] ∧ (s.ctx 0 6).qa = [] := by decide

/-! ### Queues -/

/-- A flit of sheet 1 of a read at its tile, and the request of one at the crossing of levee 0 at tile 0. -/
def qFlit (uid : Nat) : VFlit := { someVFlit 0 with kind := 2, qref := some (7, uid, 1), last := false }
def crossing (uid : Nat) : VFlit :=
  { qFlit uid with edge := some 0, src := 0, last := true, data := [] }

/-- A read of two sheets to address 0x2FE00 from VA 0, under tag 63. -/
def someDesc (op : BitVec 2) : Desc :=
  { shlev := 0, shoff := 0, ver := 0, entry := 0, tsa := 0x2FE00, va := 0, deadline := 0, len := 2, wv := false, tag := 63,
    fb := 0, fmt := 0, op := op, raw := [] }
def someEnt (op : BitVec 2) (released : List Nat) : QEnt := { uid := 9, kind := .xfer, d := someDesc op, dl := 1, released := released }

/-- Slot 0 has its save area at frame 0, whose page table maps VA 0 to PA 0 as one page of 1 GiB, readable. -/
def mapped : State :=
  { slots := [(0, { state := .running, owner := some 0, save := some 0 })], tiles := [(0, {})],
    regs := { val := [(Reg.CLK_POLDER_STATE, 0)] }, mem := { hbm := [(tableOff, 0x1F)] },
    que := { q := [(7, [someEnt 0 []])] } }

theorem wit_QueueTransfers_translate : (someEnt 0 []).d.wv = false ∧
    mapped.halted 0 7 = false ∧ toRelease mapped 0 7 = some (someEnt 0 []) ∧
    (∀ x ∈ mapped.qEnts 0 7, x.uid = (someEnt 0 []).uid → x = someEnt 0 []) ∧
    descBase mapped (mapped.running.getD 0) (someEnt 0 []).d = some 0 ∧
    translate mapped 0 (0 + 256 * (someEnt 0 []).next) (someEnt 0 []).d.right = .pa 0 := by decide +kernel

/-- A descriptor of a halted queue names tag 63, whose count is 0. -/
theorem wit_Waits_halted :
    let s : State := { onGrid { core := .waitTag 63 4 0 } with que := { q := [(7, [someEnt 0 []])], halts := [(7, ⟨1, 9, 0⟩)] } }
    s.held = false ∧ (s.tag 0 63).count = 0 ∧ s.haltedTag 0 63 = true ∧ s.haltedTag 0 62 = false ∧ (s.tile 0).core = .waitTag 63 4 0 ∧
    s.on u0 = true ∧ (onGrid {}).haltedTag 0 63 = false ∧ (onGrid { core := .waitTag 3 4 0 }).haltedTag 0 3 = false := by decide +kernel

/-- Two sheets of the descriptor, released at 0 and 256, wait at their controllers. -/
def relEnt (op : BitVec 2) : QEnt := { someEnt op [0, 256] with atCtl := [(0, 0), (1, 0)] }
def released (op : BitVec 2) : State := { onGrid {} with que := { q := [(7, [relEnt op])] } }
theorem wit_QueueTransfers_return : let s := released 0
    let e := relEnt 0
    liveSheet s 0 7 63 0 1 true = some e ∧ servedNext s 0 7 e 1 = true ∧ liveSheet s 0 7 63 0 2 true = none ∧
    readHeld s (s.running.getD 0) ((descBase s (s.running.getD 0) e.d).getD 0 + 256 * 1) e.d.wv e.d.ver.toNat = false ∧
    servedNext { s with que := { q := [(7, [{ relEnt 0 with atCtl := [] }])] } } 0 7 { relEnt 0 with atCtl := [] } 1 = false := by
  decide +kernel
/-- The same sheet waits in queue 6 too, which comes first. -/
theorem wit_QueueTransfers_order :
    let s : State := { onGrid {} with que := { q := [(6, [{ relEnt 1 with uid := 8 }]), (7, [relEnt 1])] } }
    let x : QEnt := { relEnt 1 with uid := 8 }
    liveSheet s 0 7 63 0 1 false = some (relEnt 1) ∧ x ∈ s.qEnts 0 6 ∧ x.waitsAt s.cycle 1 = true ∧
    channelOf (x.pa 1) = channelOf ((relEnt 1).pa 1) ∧ x.dl = (relEnt 1).dl ∧ (6 : QNo).val < (7 : QNo).val := by decide +kernel
/-- Queue data at its tile, and a request at the crossing. -/
theorem wit_UnscheduledFlits_queue :
    let s (f : VFlit) (port : Nat) (e : QEnt) : State := { onGrid {} with mesh := { vbuf := [(vKey 0 port false, [f])] }, que := { q := [(7, [e])] } }
    let e : QEnt := { relEnt 0 with taken := [1] }
    (let t := s (qFlit 9) 4 e
     vHead t 0 4 false = some (qFlit 9, 0) ∧ vGranted t 0 4 0 false = true ∧ vCredit t 0 0 (qFlit 9) false = true ∧
     t.ent? 0 7 9 = some e ∧ e.fell = none ∧ 1 ∈ e.taken ∧ (qFlit 9).data.length = 128 ∧ (qFlit 9).last = false) ∧
    (let t := s (qFlit 9) 4 (relEnt 0)
     t.ent? 0 7 9 = some (relEnt 0) ∧ 1 ∉ (relEnt 0).taken) ∧
    (let t := s (crossing 9) 0 (relEnt 0)
     vHead t 0 0 false = some (crossing 9, 1) ∧ vGranted t 0 0 1 false = true ∧ vCredit t 0 1 (crossing 9) false = true ∧
     neighbour 0 1 = none ∧ t.ent? (crossing 9).src 7 9 = some (relEnt 0) ∧ (relEnt 0).skip ≤ 1 ∧ 1 < (relEnt 0).next) ∧
    (let f : VFlit := { someVFlit 0 with kind := 7, args := [0, 0, 0, 1, 0, 0] }
     let t := s f 0 (relEnt 0)
     vHead t 0 0 false = some (f, 0) ∧ vGranted t 0 0 0 false = true ∧ (vOuts 0 f).drop 1 = [2]) := by decide +kernel
def fullDep : List DepWrite :=
  List.replicate 8 { addr := 0, data := List.replicate 256 1, writer := 1, q := 0, uid := 0, sheet := 0, chk := some 7, part := false, since := 0 }
/-- A full deposit buffer gives no credit. -/
theorem wit_UnscheduledFlits_deposit_full :
    vCredit { released 0 with mesh := { deposit := [(0, fullDep)] } } 0 0 (qFlit 9) false = false := by decide +kernel
theorem wit_QueueTransfers_halted :
    ({ mapped with que := { mapped.que with halts := [(7, ⟨1, 9, 0⟩)] } } : State).halted 0 7 = true := by decide

/-- Every bank of tile 0 is closed; a flit of a sheet at its tile, the packet that is shorter than a flit, and queue data. -/
theorem wit_UnscheduledFlits_closed :
    let shut : Tile := { banks := (List.range 32).map fun b => (b, { pwr := .ret, closedAt := some 0 }) }
    let s (f : VFlit) : State := { onGrid shut with mesh := { vbuf := [(vKey 0 4 false, [f])] }, que := { q := [(7, [{ relEnt 0 with taken := [1] }])] } }
    let ok (f : VFlit) : Bool := vHead (s f) 0 4 false == some (f, 0) && vGranted (s f) 0 4 0 false && vCredit (s f) 0 0 f false &&
      (closedBank (s f) 0 (granules f.addr (if f.data.length = 128 then 256 else f.data.length)) (s f).cycle).isSome
    let f := someVFlit 0
    ok { f with last := false } = true ∧ ok { f with data := [1] } = true ∧ ok (qFlit 9) = true ∧
    (closedBank (onGrid {}) 0 (granules f.addr 256) 0).isSome = false ∧
    (s (qFlit 9)).ent? 0 7 9 = some { relEnt 0 with taken := [1] } := by decide +kernel
/-- The last flit of a queue sheet, both flits of a sheet that an engine asked for, and data whose sheet a fallback has withdrawn. -/
theorem wit_UnscheduledFlits_last :
    let s (f : VFlit) (e : QEnt) : State := { onGrid {} with mesh := { vbuf := [(vKey 0 4 false, [f])] }, que := { q := [(7, [e])] } }
    let ok (f : VFlit) (e : QEnt) : Bool := vHead (s f e) 0 4 false == some (f, 0) && vGranted (s f e) 0 4 0 false && vCredit (s f e) 0 0 f false &&
      (s f e).ent? 0 7 9 == some e
    let f : VFlit := { qFlit 9 with last := true }
    let e : QEnt := { relEnt 0 with taken := [1] }
    let p : QEnt := { e with kind := .pulpIn }
    ok f e = true ∧ ok f p = true ∧ ok (qFlit 9) p = true ∧ ok (qFlit 9) { e with fell := some 0 } = true ∧ ok (someVFlit 0) e = true ∧
    (someVFlit 0).data.length = 128 ∧ (someVFlit 0).last = true := by decide +kernel
theorem wit_UnscheduledFlits_join : let w : DepWrite := { addr := 0, data := List.replicate 128 1, size := 256, writer := 1, q := 7, uid := 9, sheet := 1, chk := some 7, part := false, since := 0 }
    w.size = 256 ∧ w.data.length = 128 ∧ w.addr + 128 = 128 ∧ (w.q, w.uid, w.sheet) = (7, 9, 1) := by decide +kernel

def someDep : DepWrite :=
  { addr := 0x2FF00, data := List.replicate 256 1, writer := 2, q := 0, uid := 0, sheet := 0, chk := some 7, part := false, since := 0 }
theorem wit_SheetCommits_store : let s : State := { onGrid {} with mesh := { deposit := [(0, [someDep])] } }
    s.dep 0 = someDep :: [] ∧ someDep.part = false ∧ someDep.chk = some 7 ∧ someDep.data.length = 256 ∧ someDep.addr % 256 = 0 ∧
    someDep.addr + 256 ≤ 0x30000 ∧ someDep.writer ≠ 1 ∧ (tget ({} : Pulp) s.pulp 0).outq = [] ∧
    closedBank s 0 (granules someDep.addr 256) someDep.since = none ∧ someDep.since ≤ s.cycle ∧ someDep.size ≤ 256 ∧ someDep.left = none ∧
    (∀ g ∈ granules someDep.addr 256, bankOf g ∉ s.usedBanks 0) := by decide +kernel
theorem wit_SheetCommits_waits : let s : State := { onGrid {} with mesh := { deposit := [(0, [someDep])] }, mem := { used := [(0, [31])] } }
    closedBank s 0 (granules someDep.addr 256) someDep.since = none ∧ (∃ g ∈ granules someDep.addr 256, bankOf g ∈ s.usedBanks 0) ∧
    s.cycle < ({ someDep with since := 1 } : DepWrite).since ∧ ({ someDep with size := 512 } : DepWrite).data.length < 512 := by
  decide +kernel
def readSheet : QEnt := { relEnt 1 with src := [(1, (List.replicate 256 1, 7))] }
theorem wit_SheetCommits_hbm : let s : State := { onGrid {} with que := { q := [(7, [readSheet])] } }
    liveSheet s 0 7 63 0 1 false = some readSheet ∧ servedNext s 0 7 readSheet 1 = true ∧ readSheet.kind = .xfer ∧ readSheet.d.op = 1 ∧
    tget ([], 0) readSheet.src 1 = (List.replicate 256 1, 7) ∧ (List.replicate 256 (1 : Byte)).length = 256 ∧
    readSheet.pa 1 % 256 = 0 := by decide +kernel

theorem wit_QueueEvents_deadline : let s : State := { released 0 with cycle := 1 }
    lateEntry s 0 7 = some (relEnt 0) ∧ (relEnt 0).d.fb = 0 ∧ (∀ x ∈ s.qEnts 0 7, x.uid = (relEnt 0).uid → x = relEnt 0) ∧
    lateEntry (released 0) 0 7 = none := by decide +kernel
theorem wit_QueueEvents_shadow : let e : QEnt := { relEnt 0 with d := { someDesc 0 with fb := 1 } }
    let s : State := { onGrid {} with que := { q := [(7, [e])] }, cycle := 1 }
    lateEntry s 0 7 = some e ∧ e.d.fb = 1 ∧ s.halted 0 7 = false ∧ (∀ x ∈ s.qEnts 0 7, x.uid = e.uid → x = e) ∧
    ({ s with que := { s.que with halts := [(7, ⟨1, 9, 0⟩)] } } : State).halted 0 7 = true := by decide +kernel
theorem wit_QueueEvents_held : let e : QEnt := { relEnt 0 with held := [0] }
    let s : State := { onGrid {} with que := { q := [(7, [e])] } }
    liveSheet s 0 7 63 0 0 true = some e ∧ (∀ x ∈ s.qEnts 0 7, x.uid = e.uid → x = e) ∧
    readHeld s (s.running.getD 0) ((descBase s (s.running.getD 0) e.d).getD 0 + 256 * 0) e.d.wv e.d.ver.toNat = false ∧
    liveSheet s 0 7 63 0 2 true = none := by decide +kernel
/-- The sensor of stack 11 at 86 °C and at 81 °C. -/
theorem wit_QueueEvents_refresh : let s (v : BitVec 16) : State := { pwr := { temps := [(31, v)] } }
    64 * 85 < ((s 5504).temp (20 + (11 : Fin 12).val)).toInt ∧ ((s 5184).temp (20 + (11 : Fin 12).val)).toInt < 64 * 82 ∧
    ¬ 64 * 85 < ((s 5184).temp (20 + (11 : Fin 12).val)).toInt := by decide +kernel

theorem wit_WeightVersions_issue : let s := onGrid (regs [4095, 4096])
    s.on u0 = true ∧ ((s.tile 0).gr 1).toNat < 4096 ∧ 4096 ≤ ((s.tile 0).gr 2).toNat := by decide
/-- An entry whose first copy is READY with the newest version 5. -/
def wvNow : WvEntry := { c0 := { ver := some 5, pins := 1, size := 256 }, c1 := { ver := some 4, size := 256 }, newest := 5 }
def withWv (e : WvEntry) (k : QKind) : State :=
  { slots := [(0, { state := .running, owner := some 0, wv := [(4095, e)] })], tiles := [(0, {})],
    que := { q := [(7, [{ someEnt 0 [] with kind := k, d := { someDesc 0 with tag := 3 } }])], tags := [(3, { count := 1 })] } }
theorem wit_WeightVersions_operations : let s := withWv wvNow .xfer
    (s.qEnts 0 7).length < 8 ∧ s.wvEntry (s.running.getD 0) 4095 = wvNow ∧
    wvNow.copyOf 5 = some wvNow.c0 ∧ wvNow.c0.pins < 65535 ∧ 0 < wvNow.c0.pins ∧ wvNow.declared = true ∧
    wvNow.writingCopy = none ∧ wvNow.c0.ver = some wvNow.newest ∧ wvNow.c1.pins = 0 ∧
    (let e : WvEntry := { c0 := wvNow.c1, c1 := wvNow.c0, newest := 5 }
     e.declared = true ∧ e.writingCopy = none ∧ e.c0.ver ≠ some e.newest ∧ e.c0.pins = 0) ∧
    (let e : WvEntry := { wvNow with c0 := { size := 256, writing := true } }
     e.c0.writing = true) := by decide
theorem wit_WeightVersions_alone : ∀ x ∈ (withWv wvNow .xfer).que.q, ∀ y ∈ x.2, y.kind ≠ .wvClaim 4095 ∧ ∀ v, y.kind ≠ .wvPin 4095 v := by
  intro x hx y hy
  simp only [withWv, List.mem_cons, List.not_mem_nil, or_false] at hx
  subst hx
  simp only [List.mem_cons, List.not_mem_nil, or_false] at hy
  subst hy
  exact ⟨by decide, fun v h => by cases h⟩
theorem wit_WeightVersions_pin : let s := withWv wvNow (.wvPin 4095 5)
    ∃ e, s.qEnts 0 7 = [e] ∧ e.d.tag = 3 ∧ e.kind = .wvPin 4095 5 ∧ wvNow.copyOf 5 = some wvNow.c0 ∧ wvNow.c0.pins < 65535 ∧
      pinResult wvNow 6 = .waits := ⟨_, rfl, by decide⟩
theorem wit_WeightVersions_claim : let s := withWv wvNow (.wvClaim 4095)
    ∃ e, s.qEnts 0 7 = [e] ∧ e.kind = .wvClaim 4095 ∧ (∀ x ∈ s.que.q, ∀ y ∈ x.2, e.uid ≤ y.uid) ∧
      ({ wvNow with c0 := { size := 256, writing := true } } : WvEntry).writingCopy ≠ none ∧ wvNow.writingCopy = none ∧ wvNow.claimed.pins = 0 ∧
      ({ wvNow with c1 := { wvNow.c1 with pins := 1 } } : WvEntry).claimed.pins ≠ 0 ∧
      ({ wvNow with c1 := { wvNow.c1 with pins := 1 } } : WvEntry).writingCopy = none := ⟨_, rfl, by decide⟩

theorem wit_SheetCommits_closed : let s : State := { bankGoing .ret with mesh := { deposit := [(0, [someDep])] } }
    s.dep 0 = someDep :: [] ∧ (closedBank s 0 (granules someDep.addr 256) someDep.since).isSome = true ∧
    (∀ g ∈ granules someDep.addr 256, bankOf g ∉ s.usedBanks 0) := by decide +kernel
theorem wit_QueueEvents_no_fallback : let e : QEnt := { relEnt 0 with d := { someDesc 0 with fb := 3 } }
    let s : State := { onGrid {} with que := { q := [(7, [e])] }, cycle := 1 }
    lateEntry s 0 7 = some e ∧ e.d.fb = 3 := by decide +kernel
/-- A scatter or gather of OP 2 that defers, with a sheet still to be transferred, and with none. -/
theorem wit_QueueEvents_defer : let e : QEnt := { relEnt 2 with d := { someDesc 2 with fb := 2 } }
    let f : QEnt := { e with done := [0, 1] }
    let s (e : QEnt) : State := { onGrid {} with que := { q := [(7, [e])] }, cycle := 1 }
    lateEntry (s e) 0 7 = some e ∧ e.d.fb = 2 ∧ e.d.op = 2 ∧ (s e).halted 0 7 = false ∧ (∀ x ∈ (s e).qEnts 0 7, x.uid = e.uid → x = e) ∧
    ¬ (∀ j, j < 2 → j ∈ e.done) ∧ lateEntry (s f) 0 7 = some f ∧ (∀ j, j < 2 → j ∈ f.done) ∧ f.skip = 0 ∧ f.released.length = 2 := by decide +kernel
theorem wit_WeightVersions_publish : let e : WvEntry := { wvNow with c1 := { size := 256, writing := true } }
    e.c0.writing = false ∧ e.c1.writing = true := by decide

/-! ### Chains and pulp engines -/

/-- A chain table whose entry 0 is one pset of the S slot. -/
def chained (x : Tile) : State :=
  { slots := [(0, { state := .running, owner := some 0, chainTab := [[1, 0, 0, 0, 1, 0, 0, 0x88] ++ List.replicate 12 0 ++ [1]] })],
    tiles := [(0, x)] }
def someChain (uid : Nat) : Chain := { uid := uid, regs := [], stages := [(1, 0x88000001)], pend := [⟨0, 9, none, 0⟩], till := 9 }
theorem wit_Chains : let s : State := { chained { chains := [someChain 1, someChain 2, someChain 3] } with uid := 4 }
    let alive := (s.tile 0).chains.filter fun c => !(c.pend.isEmpty && decide (c.till ≤ s.cycle))
    s.on u0 = true ∧ chainEntry s 0 = some ((1, 0x88000001) :: []) ∧ (∀ c ∈ alive, c.uid ≠ s.uid) ∧ alive.length < 4 := by
  decide +kernel
theorem wit_Chains_full :
    let s : State := { chained { chains := [someChain 0, someChain 1, someChain 2, someChain 3] } with uid := 4 }
    let alive := (s.tile 0).chains.filter fun c => !(c.pend.isEmpty && decide (c.till ≤ s.cycle))
    chainEntry s 0 = some ((1, 0x88000001) :: []) ∧ (∀ c ∈ alive, c.uid ≠ s.uid) ∧ 4 ≤ alive.length := by decide +kernel
theorem wit_Chains_stages : let s : State := { chained { chains := [someChain 1] } with uid := 2 }
    (∀ a, ∀ st ∈ ((s.tile 0).arr a).streams, st.uid < s.uid) ∧ (∀ c ∈ (s.tile 0).chains, ∀ p ∈ c.pend, s.cycle < p.cyc) := by
  decide +kernel
theorem wit_Chains_stage_due : let s : State := { chained { chains := [someChain 1] } with uid := 2, cycle := 9 }
    (∀ a, ∀ st ∈ ((s.tile 0).arr a).streams, st.uid < s.uid) ∧ ¬ (∀ c ∈ (s.tile 0).chains, ∀ p ∈ c.pend, s.cycle < p.cyc) := by
  decide +kernel

def chainOf (l : List (Nat × Word)) : Chain := { uid := 1, regs := [], stages := l, pend := [], till := 0 }
/-- A stream, a drain and a V operation of a chain: vadd v9 = v8 + v7, in FP32. -/
theorem wit_Chains_stage : decodeSlot 0 6 0x04092070 = .op (.vadd u0 9 8 7 false) ∧ vecDest (.vadd u0 9 8 7 false) = some 9 ∧
    decodeSlot 0 2 0x04022192 = .op (.mmStream u0 0 1 2 3 4 1 false) ∧ decodeSlot 0 5 0x042F0886 = .op (.couchDrain u0 1 0 15 1 2 3) ∧
    (let s := onGrid { arr0 := { cfg := arrayWord } }
     ((s.tile 0).arr 0).pwr.isOn s.cycle = true ∧ streamOk ((s.tile 0).arr 0).cfg 0 0 0 0 = true) ∧
    drainOk CouchEntry.zero true 0 0 0 0 = true ∧ drainOk CouchEntry.zero true 1 0 0 0 = false ∧ (∀ d ∈ ((onGrid {}).tile 0).drains, d.uid ≠ 0) ∧
    (chainOf [(5, 0x042F0886), (6, 0x04092070)]).stages.getD 1 (0, 0) = (6, 0x04092070) := by decide +kernel
def chainDrain : Drain :=
  { uid := 5, issue := 0, arr := 0, set := 0, entry := { desc := [0, 0, 0, 0, 3] ++ List.replicate 59 0, cols := [] }, re := 0, rs := 0, ru := 0, rus := 0,
    chain := some 1, cut := none, rows := [(31, List.replicate 32 1)], us := [], uss := [] }
theorem wit_Chains_row : let s := onGrid { drains := [chainDrain], chains := [chainOf [(5, 0x042F0886), (6, 0x04092070)]] }
    (s.tile 0).drain 5 = some chainDrain ∧ chainDrain.chain = some 1 ∧ epDest chainDrain.entry = 3 ∧
    tfind chainDrain.rows 31 = some (List.replicate 32 1) ∧ (chainOf [(5, 0x042F0886), (6, 0x04092070)]).vStage = some 1 := by decide +kernel

theorem wit_PulpWork_start : let s := onGrid (regs [0x2FFC0, 0x2FFE0])
    s.on u0 = true ∧ ((s.tile 0).gr 1).toNat % 64 = 0 ∧ ((s.tile 0).gr 1).toNat + 64 ≤ 0x30000 ∧
    ¬ (((s.tile 0).gr 2).toNat % 64 = 0 ∧ ((s.tile 0).gr 2).toNat + 64 ≤ 0x30000) := by decide
def withPulp (p : Pulp) (cyc : Nat) : State := { onGrid {} with pulp := [(0, p)], cycle := cyc }
/-- A descriptor of 64 bytes, zero but for the bytes named. -/
def pdesc (l : Tbl Nat) : Bytes := (List.range 64).map fun k => BitVec.ofNat 8 (tget 0 l k)
/-- A phase whose engine may act from cycle 8 on, over the items lo to hi − 1. -/
def gathering (lo hi : Nat) : Pulp := { active := true, desc := pdesc [(0, 1)], lo := lo, hi := hi }
theorem wit_PulpWork_items :
    ((withPulp (gathering 3 4) 8).pl 0).idle 8 = true ∧ 3 < 4 ∧ ((withPulp (gathering 3 4) 7).pl 0).idle 7 = false ∧
    ((withPulp (gathering 3 4) 8).pl 0).op = 1 ∧ ((withPulp { gathering 3 4 with desc := pdesc [(0, 5)] } 8).pl 0).op = 5 ∧
    ((withPulp { gathering 3 4 with desc := pdesc [(0, 5)] } 8).pl 0).idle 8 = true ∧
    (let p := (withPulp (gathering 4 4) 8).pl 0
     p.idle 8 = true ∧ p.hi ≤ p.lo ∧ p.finished = false ∧ p.awaiting = false ∧ p.nosteal = false) ∧
    (let p := (withPulp { gathering 4 4 with nosteal := true } 8).pl 0
     p.idle 8 = true ∧ p.hi ≤ p.lo ∧ p.finished = false ∧ p.awaiting = false ∧ p.nosteal = true) ∧
    (({} : State).pl 0).active = false ∧ ((withPulp { gathering 3 4 with stopped := true } 8).pl 0).stopped = true := by decide +kernel
/-- Item 0 asks for row 0 of VA 0, mapped to PA 0; it takes 10 cycles. -/
def gatherItem (cyc : Nat) : State :=
  { mapped with que := {}, pulp := [(0, { gathering 1 1 with item := some 0, n := 1 })], cycle := cyc }
theorem wit_PulpWork_item : ((gatherItem 10).pl 0).item = some 0 ∧ itemReady (gatherItem 9) 0 0 = false ∧
    itemReady (gatherItem 10) 0 0 = true ∧ (itemRun 0 0 (gatherItem 10)).ready = false ∧
    (let s := gatherItem 10
     let s := s.setPl 0 { s.pl 0 with cache := [(0, 10, List.replicate 256 0)] }
     (s.pl 0).item = some 0 ∧ itemReady s 0 0 = true ∧ (itemRun 0 0 s).ready = true) := by decide +kernel
theorem wit_PulpWork_steal : let s := withPulp { gathering 4 5 with inbox := [.steal 143 7] } 8
    toServe s 0 = some (.steal 143 7) ∧ (s.pl 0).idle 8 = true ∧ (s.pl 0).lo < (s.pl 0).hi ∧ (s.pl 0).op = 1 ∧
    (let s := withPulp { gathering 4 5 with inbox := [.steal 143 6] } 7
     toServe s 0 = some (.steal 143 6) ∧ (s.pl 0).idle 7 = false) ∧
    toServe (withPulp { gathering 4 5 with inbox := [.steal 143 8] } 8) 0 = none := by decide +kernel
/-- Tile 0 has 143 victims. -/
theorem wit_PulpWork_reply : let s := withPulp { gathering 4 4 with inbox := [.reply 0 1 8], search := some 142, awaiting := true } 8
    (s.pl 0).inbox = .reply 0 1 8 :: [] ∧ (s.pl 0).stopped = false ∧ (0 : Nat) < 1 ∧ (s.pl 0).search = some 142 ∧
    (victims (0 / 48 % 12) (0 % 48 % 12)).length ≤ 142 + 1 ∧ ((victims (0 / 48 % 12) (0 % 48 % 12))[141 + 1]?).isSome = true ∧
    (∀ x ∈ ((withPulp (gathering 4 4) 8).pl 0).inbox, x.isReply = false) := by decide +kernel

/-- An engine that owns a bucket at address 0, with an item under way, and has read the bucket's granules and the drop count at 512. -/
def owner (b : List HEnt) (inbox : List PulpMsg) : Pulp :=
  let d := bucketBytes b ++ [3, 0, 0, 0, 0, 0, 0, 0]
  { active := true, desc := pdesc [(0, 4), (48, 8)], item := some 0, inbox := inbox,
    got := (List.range 33).map fun k => (if k = 32 then 64 else k, (d.drop (8 * k)).take 8) }
def sixteen : List HEnt := (List.range 16).map fun k => (k + 1, 0, k + 2, 0)
theorem wit_PulpTableAndCompletion_insert : let s := withPulp (owner [] [.insert 5 6 7 0 0]) 1
    let p := s.pl 0
    let a := bucketAddr p 5
    toServe s 0 = some (.insert 5 6 7 0 0) ∧ p.idle s.cycle = false ∧ storePending s 0 a 256 = false ∧
    storePending s 0 p.drops 4 = false ∧ p.outq = [] ∧ p.has (granules a 256) = true ∧
    (bucketInsert (bucketOf (p.run a 256)) 5 6 7).2 = 0 ∧ toServe ({} : State) 0 = none := by decide +kernel
/-- Key 0 drops the largest key with its count 17; key 20 is dropped itself. -/
theorem wit_PulpTableAndCompletion_full : let s := withPulp (owner sixteen [.insert 0 6 7 0 0]) 1
    let p := s.pl 0
    p.has (granules (bucketAddr p 0) 256) = true ∧ p.has (granules p.drops 4) = true ∧ p.drops = 512 ∧
    (bucketInsert (bucketOf (p.run (bucketAddr p 0) 256)) 0 6 7).2 = 17 ∧
    (bucketInsert (bucketOf (p.run (bucketAddr p 20) 256)) 20 6 7).2 = 1 ∧ (p.run p.drops 4) = [3, 0, 0, 0] := by decide +kernel
theorem wit_PulpTableAndCompletion_unread :
    let s := withPulp { owner [] [.insert 5 6 7 0 0] with got := [] } 1
    let p := s.pl 0
    let a := bucketAddr p 5
    toServe s 0 = some (.insert 5 6 7 0 0) ∧ p.idle s.cycle = false ∧ p.outq = [] ∧ p.got = [] ∧ a + 256 ≤ 0x30000 ∧
    (∀ g ∈ granules a 256, s.closed 0 (bankOf g) = false ∧ bankOf g ∉ s.usedBanks 0 ∧
      tget 0 s.mem.ecc (eccKey placeTs (0 * 0x6000 + g)) = 0) ∧
    (bucketInsert (bucketOf (s.ts 0 a 256)) 5 6 7).2 = 0 := by decide +kernel
/-- A probe of the own tile, rank 0, and of a tile of rank 143. -/
theorem wit_PulpTableAndCompletion_probe : let s := withPulp (owner sixteen [.probe 16 0 15 0 0]) 1
    let p := s.pl 0
    toServe s 0 = some (.probe 16 0 15 0 0) ∧ p.has (granules (bucketAddr p 16) 256) = true ∧ p.idle s.cycle = false ∧
    storePending s 0 (bucketAddr p 16) 256 = false ∧ storePending s 0 p.drops 4 = false ∧
    ((bucketOf (p.run (bucketAddr p 16) 256)).find? fun e => e.1 == 16).isSome = true ∧
    ((bucketOf (p.run (bucketAddr p 17) 256)).find? fun e => e.1 == 17) = none ∧
    groupTile 0 0 = 0 ∧ groupTile 0 143 ≠ 0 := by decide +kernel
theorem wit_PulpTableAndCompletion_bucket :
    (16, 0, 17, 0) ∈ sixteen ∧ (∀ e ∈ sixteen, e.1 ≠ 0 ∧ e.1 ≠ 17) ∧ sixteen = sixteen.take 15 ++ [(16, 0, 17, 0)] ∧
    16 ≤ sixteen.length ∧ (16 : Nat) < 17 ∧ (0 : Nat) < 16 ∧ (sixteen.take 15).length < 16 ∧ (∀ e ∈ sixteen.take 15, e.1 ≠ 16) := by decide
/-- A phase with a window of 64 cycles whose work ended in cycle d: 32 cycles before the window is in time, 33 is not. -/
def ending (c d : Nat) (logged : Bool) : State :=
  { withPulp { active := true, desc := pdesc [(4, 64)] } c with pulpDone := some d, pulpLogged := logged }
theorem wit_PulpTableAndCompletion_complete : let s := ending 64 32 false
    let p := s.pl 0
    p.active = true ∧ s.pulpDone = some 32 ∧ s.pulpLogged = false ∧ max (p.t0 + p.win) (32 + 32) ≤ s.cycle ∧
    ¬ (p.t0 + p.win < 32 + 32) ∧ (ending 64 32 true).pulpLogged = true ∧
    (ending 63 32 false).cycle < max (((ending 63 32 false).pl 0).t0 + ((ending 63 32 false).pl 0).win) (32 + 32) ∧
    (let s := ending 65 33 false
     max ((s.pl 0).t0 + (s.pl 0).win) (33 + 32) ≤ s.cycle ∧ (s.pl 0).t0 + (s.pl 0).win < 33 + 32) ∧
    (({} : State).pl 0).active = false ∧
    (s.setPl 0 { p with active := false, gated := true }).pulp.any (fun e => e.2.active) = false ∧
    (let s : State := { s with pulp := [(0, p), (1, p)] }
     (s.setPl 0 { p with active := false, gated := true }).pulp.any (fun e => e.2.active) = true) := by decide +kernel

/-- Eight inserts of tile 0 wait in the inbox of another engine of its group: it may send no more. -/
theorem wit_PulpWork_may_send :
    maySend (withPulp (gathering 4 4) 8) 0 = true ∧
    (let p : Pulp := { gathering 4 4 with outstanding := 8, search := some 0 }
     let s := withPulp p 8
     (s.pl 0).idle 8 = true ∧ (s.pl 0).nosteal = false ∧ maySend s 0 = false ∧ (s.pl 0).hi ≤ (s.pl 0).lo ∧ 0 + 1 < (victims (0 / 48 % 12) (0 % 48 % 12)).length) ∧
    (let p : Pulp := { gathering 4 4 with search := some 141 }
     let s := withPulp p 8
     (s.pl 0).search = some 141 ∧ 141 + 1 < (victims (0 / 48 % 12) (0 % 48 % 12)).length ∧ maySend s 0 = true) := by decide +kernel
theorem wit_PulpWork_reply_kept : let p : Pulp := { gathering 4 4 with inbox := [.reply 3 3 8], search := some 141, awaiting := true, outstanding := 8 }
    let s := withPulp p 8
    (s.pl 0).inbox = .reply 3 3 8 :: [] ∧ 8 ≤ s.cycle ∧ (s.pl 0).search = some 141 ∧
    maySend (s.setPl 0 { p with inbox := [], awaiting := false }) 0 = false ∧
    maySend (s.setPl 0 { p with inbox := [], awaiting := false, outstanding := 7 }) 0 = true := by decide +kernel
theorem wit_PulpTableAndCompletion_open : let s := withPulp (owner sixteen [.insert 0 6 7 0 0]) 1
    let p := s.pl 0
    closedBank s 0 (granules (bucketAddr p 0) 256 ++ granules p.drops 4) s.cycle = none := by decide +kernel

/-! ### Pre-emption, clocking, spans and power -/

/-- Slot 0 is stopping; PR_STATE is as given. -/
def stoppingAt (pr : Nat) : State :=
  { slots := [(0, { state := .stopping, owner := some 0, coded := [0] })], tiles := [(0, {})],
    regs := { val := [(Reg.CLK_POLDER_STATE, 0), (Reg.PRE_STATUS, BitVec.ofNat 32 (pr * 2 ^ 29))] } }
theorem wit_PreemptionSteps : let s := stoppingAt 1
    s.running = some 0 ∧ s.prState = 1 ∧ (s.slot 0).ending = none ∧ allStopped s 0 = true ∧ (s.slot 0).teardown = false ∧
    (stoppingAt 2).running = some 0 ∧ (stoppingAt 2).prState = 2 ∧ s.prState ≠ 2 := by decide +kernel
theorem wit_PreemptionSteps_not_stopped : let s : State := { stoppingAt 1 with tiles := [(0, { core := .running })] }
    s.running = some 0 ∧ s.prState = 1 ∧ allStopped s 0 = false := by decide +kernel
theorem wit_PreemptionSteps_restore : let s : State := { slots := [(15, { state := .restoring, owner := some 0 })] }
    s.restoring = some 15 ∧ s.pwr.preload = false ∧ (s.slot 15).ending = none ∧ (s.slot 15).teardown = false ∧
    ({} : State).restoring = none ∧ ({ s with pwr := { preload := true } } : State).pwr.preload = true := by decide
theorem wit_PreemptionSteps_timeout :
    let s : State := { slots := [(15, { state := .running, owner := some 0, pendStop := some (0x0101, some 1) })] }
    s.running = some 15 ∧ (s.slot 15).pendStop.isSome = true ∧ (s.slot 15).state = .running ∧ (s.slot 15).teardown = false ∧
    ((onGrid {}).slot 0).pendStop = none := by decide

/-- A save begins: slot 0 has its save area at frame 1 and a window of one line, code in tile 2303. -/
def savingState : State :=
  { slots := [(0, { state := .stopping, owner := some 0, save := some 1, coded := [0, 2303], win := [(3, (1535, 1))] })],
    tiles := [(0, {})], mem := { ts := [(5, 1)], rsv := [(3 * 0x6000000 + 1535 * 0x10000, 2)] },
    regs := { val := [(Reg.CLK_POLDER_STATE, 0), (Reg.PRE_STATUS, 0x40000000)] } }
theorem wit_PreemptionSteps_save : let s := savingState
    s.running = some 0 ∧ s.prState = 2 ∧ (s.slot 0).teardown = false ∧ (s.slot 0).save = some 1 ∧ (∀ e ∈ s.mem.ts, e.1 < rsvOffset) ∧
    (∀ l, l < 4 → ((tget (0, 0) (s.slot 0).win l).1 + (tget (0, 0) (s.slot 0).win l).2) * 0x10000 ≤ 0x6000000) ∧
    0 < (tget (0, 0) (s.slot 0).win 3).2 * 0x10000 ∧ 2303 ∈ (s.slot 0).coded := by decide +kernel
theorem wit_PreemptionSteps_canonical : savingState.Canonical := by refine ⟨?_, ?_, ?_, ?_, ?_⟩ <;> decide +kernel

def marginOne (v : Nat) : State := { onGrid {} with clk := { margin := [(19 * 9 + 3, v)] } }
theorem wit_Clocking : let s := marginOne 200
    s.inGraph 0 = true ∧ ({} : State).inGraph 0 = false ∧ (3 : Fin 9).val < monitors 19 ∧ (8 : Fin 9).val < monitors 15 ∧
    (199 : Byte).toNat < s.marginAt 19 3 ∧ s.fbWarn ≤ (199 : Byte).toNat ∧ s.fbCrit ≤ (199 : Byte).toNat ∧
    s.marginAt 19 3 ≤ (200 : Byte).toNat ∧ s.marginAt 19 3 < (201 : Byte).toNat := by decide
/-- Thresholds 60, 80 and 120 ps; the readings 60 and 79 lie between FB_CRIT and FB_WARN. -/
theorem wit_Clocking_warn : let s := (marginOne 200).setReg Reg.CLK_FB_THRESH 0x0078503C
    (79 : Byte).toNat < s.fbWarn ∧ s.fbCrit ≤ (60 : Byte).toNat ∧ 19 * 9 + 3 ∉ s.clk.warnOff ∧ s.fbRaise = 120 := by decide
theorem wit_Clocking_raise :
    let s := (onGrid {}).setReg Reg.CLK_OPREQ 0x10 |>.setReg Reg.CLK_OPSEL 0x100
    s.rf Reg.CLK_OPSEL 8 8 = 1 ∧ s.rf Reg.BOOT_STATUS 24 24 = 0 ∧
    (∀ y k, y < 20 → k < monitors y → s.fbRaise ≤ s.marginAt y k) ∧ s.rf Reg.CLK_OPSEL 3 0 < s.rf Reg.CLK_OPREQ 7 4 ∧
    ¬ ({} : State).rf Reg.CLK_OPSEL 3 0 < ({} : State).rf Reg.CLK_OPREQ 7 4 := by
  refine ⟨by decide +kernel, by decide +kernel, fun y k _ _ => ?_, by decide +kernel, by decide +kernel⟩
  have h : ∀ n, tget 255 ((onGrid {}).setReg Reg.CLK_OPREQ 0x10 |>.setReg Reg.CLK_OPSEL 0x100).clk.margin n = 255 := fun _ => rfl
  simp only [State.marginAt, h]
  decide +kernel
theorem wit_Clocking_pll : let s := ({} : State).setReg Reg.CLK_STATUS 0x01800000
    s.rf Reg.CLK_STATUS 23 23 = 1 ∧ s.rf Reg.CLK_STATUS 22 22 = 0 ∧ s.running = none ∧
    ¬ (({} : State).rf Reg.CLK_STATUS 23 23 = 1) ∧ ((onGrid {}).setReg Reg.CLK_STATUS 0x01800000).running.isSome = true := by
  decide +kernel

/-- Task 3 runs in a window, or there is none. -/
theorem wit_Clocking_held : inWindow { marginOne 200 with ras := { win := 1 } } 3 = true ∧ inWindow (marginOne 200) 3 = false := by decide

/-- Slot 0 runs a program with code in tile 0. -/
def coded (c : CoreState) : State :=
  { slots := [(0, { state := .running, owner := some 0, coded := [0], modules := 1, spans := [{}] })], tiles := [(0, { core := c })],
    regs := { val := [(Reg.CLK_POLDER_STATE, 0)] } }
theorem wit_SpanBoundary (c : CoreState) (h : c = .arrived 0 0 ∨ c = .ended) : let s := coded c
    s.running = some 0 ∧ s.ras.hold = false ∧ s.debug = false ∧ haltedAtTide 0 (settleStreams s) = none ∧ (s.slot 0).modules ≤ 1 ∧
    (s.slot 0).pendStop = none ∧ (s.slot 0).teardown = false ∧ copyDue (settleStreams s) 0 = false ∧
    boundaryReady 0 (settleStreams s) = true ∧ (∀ j, j < 6 → taskForces s j = false) := by
  rcases h with rfl | rfl <;> decide +kernel
/-- Calibration is at its limit of one minute; one cycle of 10 μs before, nothing forces a window. -/
theorem wit_SpanBoundary_forced :
    let s (n : Nat) : State := { coded (.arrived 0 0) with ras := { age := [(5, n)] } }
    taskForces (s 600000) 5 = true ∧ (∀ j, j < 6 → taskForces (s 599999) j = false) ∧ (s 600000).ras.hold = false ∧
    boundaryReady 0 (settleStreams (s 600000)) = true ∧ ({ s 0 with ras := { hold := true } } : State).ras.hold = true := by decide +kernel
theorem wit_SpanBoundary_goes_on : ∃ t ∈ ((coded (.arrived 0 0)).slot 0).coded, ((coded (.arrived 0 0)).tile t).core ≠ .ended := by
  decide
theorem wit_SpanBoundary_ends : ∀ t ∈ ((coded .ended).slot 0).coded, ((coded .ended).tile t).core = .ended := by decide
theorem wit_SpanBoundary_not_ready : boundaryReady 0 (settleStreams (coded .running)) = false := by decide +kernel

/-- A program of two modules: before its arrival is noted, and with the exchange complete. -/
def codedTwo (d : Tide) : State :=
  { coded (.arrived 0 0) with slots := [(0, { state := .running, owner := some 0, coded := [0], modules := 2, spans := [{}], tide := d })] }
theorem wit_SpanBoundary_modules :
    (let s := codedTwo {}
     s.running = some 0 ∧ s.ras.hold = false ∧ s.debug = false ∧ haltedAtTide 0 (noteArrival 0 (settleStreams s)) = none ∧ (s.slot 0).teardown = false ∧
     copyDue (noteArrival 0 (settleStreams s)) 0 = false ∧ 1 < (s.slot 0).modules ∧ (s.slot 0).tide.passed = false ∧ (s.slot 0).tide.arrived = false ∧
     (s.slot 0).state = .running ∧ localReady 0 (settleStreams s) = true ∧ reamsSettled (settleStreams s) 0 = true) ∧
    (let s := codedTwo { arrived := true, passed := true }
     haltedAtTide 0 (noteArrival 0 (settleStreams s)) = none ∧ copyDue (noteArrival 0 (settleStreams s)) 0 = false ∧
     boundaryReady 0 (noteArrival 0 (settleStreams s)) = true ∧ (s.slot 0).pendStop = none) := by decide +kernel
theorem wit_SpanBoundary_pending :
    let s : State := { coded (.arrived 0 0) with slots := [(0, { state := .running, owner := some 0, coded := [0], modules := 1, spans := [{}], pendStop := some (0, some 1) })] }
    s.running = some 0 ∧ haltedAtTide 0 (settleStreams s) = none ∧ copyDue (settleStreams s) 0 = false ∧ (s.slot 0).pendStop.isSome = true ∧
    boundaryReady 0 (settleStreams s) = true := by decide +kernel
/-- A forced window: under way, over with counts that differ, and over with equal ones. -/
theorem wit_SpanBoundary_hold :
    let s (w : Nat) (clk : ClkSt) : State := { coded (.arrived 0 0) with ras := { hold := true, win := w }, clk := clk }
    (s 1 {}).ras.hold = true ∧ (s 1 {}).running = some 0 ∧ 0 < (s 1 {}).ras.win ∧ (s 0 {}).ras.win = 0 ∧ countsEqual true (s 0 {}) = true ∧
    countsEqual true (s 0 { hist := [(0, [1])] }) = false := by decide +kernel

def avgW (w : Nat) : State := ({} : State).setReg Reg.PWR_AVG (BitVec.ofNat 32 w)
theorem wit_PowerDecisions : let s := avgW 0xFFFF
    s.running = none ∧ s.effF Reg.PWR_CAP 15 0 < s.rf Reg.PWR_AVG 15 0 ∧ (avgW 0).rf Reg.PWR_AVG 15 0 ≤ (avgW 0).effF Reg.PWR_CAP 15 0 ∧
    (avgW 0).rf Reg.PWR_AVG 15 0 * (16 - ((avgW 0).rf Reg.CLK_STATUS 31 28 - 1)) ≤
      (avgW 0).effF Reg.PWR_CAP 15 0 * (16 - (avgW 0).rf Reg.CLK_STATUS 31 28) ∧
    (let s := (avgW 1000).setReg Reg.CLK_STATUS 0x30000000
     let cap := s.effF Reg.PWR_CAP 15 0
     (avgW cap).rf Reg.PWR_AVG 15 0 ≤ cap ∧
     ¬ ((avgW cap).rf Reg.PWR_AVG 15 0 * (16 - (3 - 1)) ≤ cap * (16 - 3))) ∧
    (onGrid {}).running.isSome = true ∧ wfld (({} : State).reg Reg.LL_CTRL) 31 31 = 0 := by decide +kernel
theorem wit_PowerDecisions_thermal :
    let s : State := { pwr := { overTemp := [(36, 0x2000)] } }
    let cool (ms th : Nat) : State := { ({} : State).setRf Reg.CLK_OPREQ 11 8 th with pwr := { coolMs := ms } }
    s.running = none ∧ s.pwr.overTemp ≠ [] ∧ s.rf Reg.CLK_OPREQ 11 8 < 8 ∧
    (cool 1000 1).pwr.overTemp = [] ∧ 1000 ≤ (cool 1000 1).pwr.coolMs ∧ 0 < (cool 1000 1).rf Reg.CLK_OPREQ 11 8 ∧
    (cool 999 1).pwr.coolMs < 1000 ∧ (cool 1000 0).rf Reg.CLK_OPREQ 11 8 = 0 := by decide +kernel

theorem wit_SensorsAndIdle : (List.replicate 41 (0x0640 : BitVec 16)).length ≤ 41 ∧ (36 : Fin 64).val < 37 ∧ 37 ≤ (37 : Fin 64).val ∧
    (2 : Fin 5).val < 3 ∧ 3 ≤ (3 : Fin 5).val := by decide
theorem wit_SensorsAndIdle_idle :
    let s : State := { pwr := { eff := [(Reg.PWR_IDLE, 60)] } }
    s.idle = 0 ∧ s.effF Reg.LL_CTRL 31 31 = 0 ∧ s.gridBusy = false ∧ s.host.accepted.any (·.started) = false ∧ idleChoice s = 2 ∧
    ¬ ((onGrid {}).gridBusy = false) ∧ idleChoice { pwr := { eff := [(Reg.PWR_IDLE, 2)] } } = 0 := by decide +kernel

/-! ### Supply, start-up, flash and security -/

theorem wit_SupplySequence : let m : ModSt := {}
    m.en = true ∧ m.holdoff = false ∧ m.locked = false ∧ m.latch = .none ∧ m.supply ≠ .off ∧ m.supply ≠ .charging ∧
    ({ m with en := false } : ModSt).en = false ∧ ({ m with holdoff := true } : ModSt).holdoff = true ∧
    ({ m with supply := .charging } : ModSt).supply = .charging ∧ ({ m with locked := true } : ModSt).locked = true ∧
    ¬ (({ m with latch := .untilLow } : ModSt).latch = .none) ∧ 3 ≤ (3 : Fin 5).val ∧ (2 : Fin 5).val < 3 ∧
    (36 : Fin 64).val < 37 ∧ 37 ≤ (37 : Fin 64).val ∧ ({ m with supply := .off } : ModSt).supply ≠ .on := by decide

/-- Start-up stands at a stage; the other slot has been tried where asked. -/
def starting (stage : Nat) (o : BootOutcome) (other : Bool) : State :=
  { (({} : State).setRf Reg.BOOT_STATUS 31 28 stage).setRf Reg.BOOT_STATUS 25 25 (b2n other) with boot := { started := true, plan := some o } }
def startCmd15 : HostCmd := ⟨8, 0, 2, 0, 0, 15, 0, 0, 256, 0, List.replicate 96 0⟩
def sample : PowerSample := { watts := 0xFFFF, deciVolts := 480, atLimit := true, railMv := [], railA := [] }
/-- A START waits for the draw; this tick ends the preparation. Another tick finds no START waiting; in RECOVERY it does nothing. -/
theorem wit_PowerDecisions_launch :
    let s : State := { slots := [(15, { state := .admitted, owner := some 8, save := some 0 })], regs := { val := [(Reg.BOOT_STATUS, 0x70000000)] },
                       host := { waits := [(opStart, startCmd15)] }, pwr := { preload := true } }
    s.stage ≠ 8 ∧ (s.host.waits.filter fun w => w.1 == opStart) = [(opStart, startCmd15)] ∧ (governorTick sample s).pwr.preload = false ∧
    startCmd15.slot.toNat = 15 ∧ (s.slot 15).owner = some startCmd15.fn ∧ (s.slot 15).state = .admitted ∧ s.gridBusy = false ∧
    startPatches startCmd15 (s.slot 15) = some [] ∧ (∀ w ∈ (avgW 0).host.waits, w.1 ≠ opStart) ∧ (avgW 0).stage ≠ 8 ∧
    (starting 8 (.ok 5) false).stage = 8 := by decide +kernel
theorem wit_SensorsAndIdle_deeper :
    let s : State := ({ ({} : State) with pwr := { eff := [(Reg.PWR_IDLE, 4000)] } }).setRf Reg.PWR_STATUS 31 30 1
    s.idle < idleChoice s ∧ s.stage ≠ 8 ∧ (starting 8 (.ok 5) false).stage = 8 ∧ idleChoice { pwr := { eff := [(Reg.PWR_IDLE, 4000)] } } = 3 := by decide +kernel

theorem wit_StartUp : let s : State := {}
    s.md.supply = .on ∧ s.boot.started = false ∧ s.boot.busy = none ∧ s.pending = [] ∧ s.boot.plan = none ∧
    ({ s with boot := { busy := some (1, 0) } } : State).boot.busy.isSome = true ∧
    ({ s with boot := { busy := some (1, 0) } } : State).boot.next = none ∧
    ({ s with boot := { started := true } } : State).boot.started = true ∧
    ({ s with md := { supply := .off } } : State).md.supply ≠ .on := by decide
theorem wit_StartUp_outcomes : (∀ u, BootOutcome.ok 5 ≠ .fuseRead u) ∧ (∀ u, BootOutcome.ok 5 ≠ .hbmStack u) ∧
    (∀ u, BootOutcome.ok 5 ≠ .sluice u) ∧ (∀ u, BootOutcome.ok 5 ≠ .tileBeyondSpares u) := by
  refine ⟨?_, ?_, ?_, ?_⟩ <;> intro u h <;> cases h
theorem wit_StartUp_stages : ∀ k, k < 7 → (starting k (.ok 5) false).stage = k ∧ (starting k (.ok 5) false).boot.plan = some (.ok 5) ∧
    (starting k (.ok 5) true).stage = k := by decide +kernel
/-- Two slots that begin with no magic: neither verifies. What a stage does with an image that verifies stands on hypotheses about
the module's own keys. -/
theorem wit_StartUp_verify (k : Nat) : let s : State := { boot := { flash := [(0x400, []), (0x2200, [])] } }
    verifyImage s k = .error (1, 0) := by
  rcases Nat.eq_zero_or_pos k with rfl | h
  · rfl
  · have h1 : slotBase k = 0x2200000 := by unfold slotBase; rw [if_neg (by omega)]
    simp only [verifyImage, h1]
    rfl
theorem wit_StartUp_other : (starting 2 (.ok 5) true).rf Reg.BOOT_STATUS 25 25 = 1 ∧ (starting 2 (.ok 5) false).rf Reg.BOOT_STATUS 25 25 ≠ 1 := by
  decide +kernel

theorem wit_FlashAndSecurity : let s : State := ({} : State).setRf Reg.BOOT_STATUS 31 28 4
    s.served = true ∧ (({} : State).setRf Reg.BOOT_STATUS 31 28 3).served = false ∧
    s.boot.busy = none ∧ ({ s with boot := { busy := some (3, 0x1000) } } : State).boot.busy = some (3, 0x1000) ∧
    ({ s with boot := { busy := some (3, 0x1000) } } : State).boot.next = none ∧
    ({ s with boot := { busy := some (3, 0x1000) } } : State).boot.busy.isSome = true ∧ 3 < 8 ∧
    (calFault (windowBytes s)).isSome = true ∧ s.sec.burn = none ∧ ({ s with sec := { burn := some 5 } } : State).sec.burn = some 5 ∧
    s.sec.keying = false ∧ ({ s with sec := { keying := true } } : State).sec.keying = true ∧ (0 : Word) ≠ 0x53564E31 := by
  decide +kernel

theorem wit_StartUp_step : (starting 6 (.ok 5) false).pending = [] ∧ (starting 6 (.ok 5) false).boot.plan = some (.ok 5) ∧
    ({} : State).boot.plan = none ∧ ({} : State).pending = [] := by decide
theorem wit_FlashAndSecurity_port : 2304 * tsSize - 1 + 1 ≤ testSize .tileStore ∧ 0x17FFFFFF + [(1 : Byte)].length ≤ testSize .reservoir ∧
    (starting 8 (.ok 5) false).stage = 8 ∧ (starting 4 (.ok 5) false).stage ≠ 8 := by decide +kernel

/-! ### Links -/

def withPort (x : Port) : State := { ports := [(11, x)] }
/-- All eight lanes of a port, as their frames have come in. -/
def lanes8 (l : LaneSt) (n : Nat) : Tbl LaneSt := (List.range n).map fun k => (k, { l with lane := k })
def goodLane : LaneSt := { found := true, good := true, peerState := 2 }
theorem wit_LinkPorts :
    ((withPort { st := .detect }).port 11).st = .detect ∧ ((withPort { st := .align }).port 11).st = .align ∧
    ((withPort { st := .ident }).port 11).st = .ident ∧
    ((withPort { st := .recover }).port 11).st = .recover ∧ ((withPort {}).port 11).st ∉ [PortState.eq, .align, .ident, .recover] ∧
    ((withPort { st := .down }).port 11).st = .down ∧ (withPort { st := .down }).linkEnabled 11 = true ∧
    (withPort { st := .down }).linkAuto = true ∧
    ((withPort { st := .down }).setReg Reg.LNK_CTRL 0).linkEnabled 11 = false := by decide
/-- EQ ends with one half of the lanes, or with none. -/
theorem wit_LinkPorts_half :
    (let s := withPort { st := .eq, lanes := lanes8 goodLane 4 }
     (s.port 11).choice (s.rf (Reg.port 11 8) 8 8 == 1) true = some (4, 0) ∧ (s.port 11).mapping 4 0 = some false) ∧
    (let s := withPort { st := .eq, lanes := lanes8 goodLane 3 }
     (s.port 11).choice (s.rf (Reg.port 11 8) 8 8 == 1) true = none) := by decide +kernel
theorem wit_LinkPorts_retrain : (starting 6 (.ok 5) false).portsOn = true ∧ (starting 5 (.ok 5) false).portsOn = false ∧
    (({ starting 6 (.ok 5) false with ports := [(11, { st := .standby })] } : State).port 11).st ≠ .down ∧
    (({ starting 6 (.ok 5) false with ports := [(11, { st := .down })] } : State).port 11).st = .down ∧
    ((starting 6 (.ok 5) false).port 11).st = .disabled := by decide +kernel
theorem wit_LinkPorts_loss : let x := (withPort { st := .active, width := 8 }).port 11
    x.st ∈ [PortState.active, .degraded, .recover] ∧ (x.base ≤ 7 ∧ 7 < x.base + x.width) ∧
    (let y := (withPort { st := .degraded, width := 4 }).port 11
     y.st ∈ [PortState.active, .degraded] ∧ ¬ (y.base ≤ 4 ∧ 4 < y.base + y.width)) := by decide
/-- The control word of a training frame: TSTATE 3, lane 7, CDOWN 0. -/
def lastFrame : BitVec 32 := 0x37000000
/-- The control word of a frame of lane 7 that asks for preset 5 with CUPD 0. -/
def askFrame : BitVec 32 := 0x170D0000
def aligning (st : PortState) : Port :=
  { st := st, width := 8, aligning := true, lanes := lanes8 { goodLane with peerState := 3, last := true } 7 }
theorem wit_LinkPorts_frames :
    ((withPort {}).port 11).st ∉ [PortState.detect, .eq, .align, .recover] ∧
    (let x := (withPort { st := .detect, lanes := lanes8 { found := true } 2 }).port 11
     x.st = .detect ∧ x.aligning = false ∧ (x.lanes.filter fun e => e.2.found).length < 3) ∧
    (let c := askFrame.toNat
     let t0 := tget ({} : TxLane) ((withPort { st := .detect }).port 11).tx (fld c 27 24)
     fld c 27 24 < 8 ∧ bitN c 19 = true ∧ fld c 15 8 = t0.cupd ∧ t0.preq = false) ∧
    (let x := (withPort { st := .detect, lanes := lanes8 { found := true } 3 }).port 11
     (x.lanes.filter fun e => e.2.found).length = 3 ∧ (tget ({} : LaneSt) x.lanes 7).found = false ∧
     (tget ({} : LaneSt) x.lanes 7).good = false ∧ (∀ e ∈ x.lanes, e.2.good = false)) := by decide +kernel
theorem wit_LinkPorts_align (st : PortState) (h : st = .align ∨ st = .recover) : let x := (withPort (aligning st)).port 11
    let m0 := fld lastFrame.toNat 27 24
    x.st = st ∧ x.back = .active ∧ x.width = 8 ∧ x.base = 0 ∧ x.aligning = true ∧ x.cdown = 0 ∧ m0 < 8 ∧
    fld lastFrame.toNat 31 28 = 3 ∧ fld lastFrame.toNat 23 20 = 0 ∧ (∀ e ∈ x.lanes, e.1 ≠ 7 → e.2.lane ≠ m0) := by
  rcases h with rfl | rfl <;> decide +kernel
theorem wit_LinkPorts_align_lanes : ∀ m, m < 8 → m ≠ 7 →
    ∃ e, ((withPort (aligning .align)).port 11).laneOf m = some e ∧ e.2.last = true ∧ e.1 ≠ (7 : Fin 8).val := by
  intro m hm hn
  have h : m = 0 ∨ m = 1 ∨ m = 2 ∨ m = 3 ∨ m = 4 ∨ m = 5 ∨ m = 6 := by omega
  rcases h with rfl | rfl | rfl | rfl | rfl | rfl | rfl <;> exact ⟨_, rfl, rfl, by decide⟩

def someTx : TxFlit := { vc := 4, ftype := 5, hdr := 0, payload := [], schk := 0 }
theorem wit_LinkPorts_mapping : let s := withPort { st := .eq, lanes := lanes8 goodLane 4 }
    (s.port 11).st = .eq ∧ ((withPort { st := .recover, retry := [someTx], back := .active }).port 11).retry ≠ [] ∧
    (let t0 := tget ({} : TxLane) ((withPort { st := .detect }).port 11).tx 7
     t0.preq = false ∧ t0.psel ≠ 5) := by decide +kernel

theorem wit_LinkSending : let x : Port := { st := .active, resend := [someTx] }
    ((withPort x).port 11).streaming = true ∧ ((withPort x).port 11).resend = someTx :: [] ∧
    ((withPort {}).port 11).streaming = false ∧
    (let s := withPort { st := .active, credit := [(4, 1)], waiting := [(4, [someTx])] }
     let y := s.port 11
     y.streaming = true ∧ y.resend = [] ∧ y.retry.length < 512 ∧ y.pick (s.port (fellow 11)) = some someTx) ∧
    ((withPort { st := .active }).port 11).pick ((withPort { st := .active }).port (fellow 11)) = none ∧
    (let s := withPort { st := .active, retry := [someTx], replays := 6 }
     (s.port 11).streaming = true ∧ (s.port 11).retry ≠ [] ∧ (s.port 11).replays < 7) ∧ ((withPort { st := .active }).port 11).retry = [] ∧
    7 ≤ ((withPort { st := .active, retry := [someTx], replays := 7 }).port 11).replays := by decide +kernel
/-- The fields that a header gives a flit of type 5 on channel 4. -/
theorem wit_LinkSending_header : let f : TxFlit := { someTx with hdr := 5 * 2 ^ 188, seq := 4095 }
    f.hdr < 2 ^ 192 ∧ f.hdr % 2 ^ 188 < 2 ^ 130 ∧ f.vc < 8 ∧ f.seq < 4096 := by decide
/-- The other member keeps an earlier flit of the same pair. -/
theorem wit_LinkSending_held : let f : TxFlit := { someTx with vc := 3, ord := 1 }
    let s : State := { ports := [(5, { retry := [{ f with ord := 0 }] }), (11, { st := .active, waiting := [(3, [f])] })] }
    f.vc < 4 ∧ (s.port 11).st = .active ∧ (tget [] (s.port 11).waiting 3).head? = some f ∧
    (s.port (fellow 11)).holdsBack f = true := by decide
theorem wit_LinkSending_full : 512 ≤ ((withPort { st := .active, retry := List.replicate 512 someTx }).port 11).retry.length := by
  decide +kernel

/-- A flit of a type with a destination, a job and an address, sequence 0, ACK 4095. -/
def flitOf (ty vc xs sp va attr aux : Nat) (pay : Bytes) : LinkFlit :=
  let h : BitVec 192 := BitVec.ofNat 192
    (ty * 2 ^ 188 + 4095 * 2 ^ 164 + vc * 2 ^ 160 + xs * 2 ^ 128 + 9 * 2 ^ 92 + sp * 2 ^ 91 + va * 2 ^ 40 + attr * 2 ^ 32 + aux)
  { hdr := h, payload := pay, schk := crc32c (padTo pay 256), fcrc := flitCrc h pay (crc32c (padTo pay 256)) }
def linkReam (slices : Tbl SliceSt) : Ream := { raw := [1, 0xAA, 0, 0, 32, 0], st := .fill, slices := slices }
/-- A program with job 9 in slot 15 of rank 0 in a domain of two modules in X, VA 0 mapped to PA 0, and one ream; port 11 is ACTIVE. -/
def linkState (slices : Tbl SliceSt) : State :=
  { slots := [(15, { state := .running, owner := some 0, save := some 0, job := 9, modules := 2 })],
    ports := [(11, { st := .active, width := 8 })], mem := { hbm := [(tableOff, 0x1F)] },
    red := [(15, { reams := [(3, linkReam slices)] })], regs := { val := [(Reg.LNK_SHAPE, 0x80000001)] } }
theorem wit_LinkGood (p : Nat) (f : LinkFlit) (x : Port) (s : State) (hs : s.ports = [(p, x)]) (hx : x.streaming = true)
    (h5 : x.rxPos = 0) (h6 : x.expect = 0) (h7 : x.acked = 4095) (h8 : x.waiting = []) (h9 : s.linkHeld = [])
    (h : f.fcrc = flitCrc f.hdr f.payload f.schk) (h1 : flitFd f 187 176 = 0) (h2 : flitFd f 175 164 = 4095)
    (h3 : flitFd f 163 163 = 0) (h4 : flitFd f 162 160 < 5) : LinkGood p f s := by
  have hp : s.port p = x := by simp [State.port, hs, tget]
  refine ⟨?_, ?_, h, ?_, ?_, h3, h4, ?_, ?_⟩
  · rw [hp]; exact hx
  · rw [hp]; exact .inl h5
  · rw [hp, h6]; exact h1
  · rw [hp, h7]; exact h2
  · intro e he w hw
    rw [hs, List.mem_singleton] at he
    subst he
    rw [h8] at hw
    cases hw
  · rw [h9]; exact fun x h => absurd h List.not_mem_nil
def writeFlit : LinkFlit := flitOf 1 0 0 0 0 0 0 []
/-- Contribution 1 of rank 1 to slice 0 of ream 3. -/
def accFlit : LinkFlit :=
  let h : BitVec 192 := BitVec.ofNat 192
    (2 * 2 ^ 188 + 4095 * 2 ^ 164 + 2 ^ 108 + 9 * 2 ^ 92 + 0xA * 2 ^ 36 + 3 * 2 ^ 20 + 1)
  { hdr := h, payload := [], schk := crc32c (padTo [] 256), fcrc := flitCrc h [] (crc32c (padTo [] 256)) }
theorem wit_LinkTransactions_good (sl : Tbl SliceSt) : ∀ f ∈ [writeFlit, accFlit, flitOf 3 0 0 0 0 0 0 [], flitOf 4 1 0 0 0 0 0 [],
    flitOf 6 0 0 0 0 0 63 []], LinkGood 11 f (linkState sl) := by
  intro f hf
  simp only [List.mem_cons, List.not_mem_nil, or_false] at hf
  rcases hf with rfl | rfl | rfl | rfl | rfl <;>
    exact wit_LinkGood 11 _ _ _ rfl rfl rfl rfl rfl rfl rfl rfl (by decide +kernel) (by decide +kernel) (by decide +kernel) (by decide +kernel)
theorem wit_LinkTransactions : let s := linkState []
    let f := writeFlit
    s.linkUp 11 = true ∧ flitFd f 127 118 = s.rank ∧ jobSlot s (flitFd f 107 92) = some 15 ∧ f.payload.length ≤ 256 ∧
    ¬ (s.idle = 3 ∧ (s.slot 15).state = .preempted) ∧ flitType f = 1 ∧ flitType (flitOf 2 0 0 0 0 10 0 []) = 2 ∧
    flitType (flitOf 3 0 0 0 0 0 0 []) = 3 ∧ flitType (flitOf 4 1 0 0 0 0 0 []) = 4 ∧ flitType (flitOf 6 0 0 0 0 0 63 []) = 6 ∧
    translate s 15 0 .wr = .pa 0 ∧ translate s 15 0 .acc = .pa 0 ∧ translate s 15 0 .rd = .pa 0 := by decide +kernel
theorem wit_LinkTransactions_whole : crc32c (padTo writeFlit.payload 256) = writeFlit.schk := rfl
/-- Its turn comes once rank 0's has been added. -/
theorem wit_LinkTransactions_acc : let f := accFlit
    let n := flitFd f 17 0
    let s (a : List (Nat × Nat × Bool)) : State := linkState [(0, { added := a })]
    let r (a : List (Nat × Nat × Bool)) : Ream := linkReam [(0, { added := a })]
    (∀ a ∈ [[], [(0, 1, false)]], (s a).ream? 15 (flitFd f 31 20) = some (r a) ∧ (r a).red = true ∧ (r a).thin = false ∧
      (owned (s a) (r a)).contains (n / 128) = true ∧ n % 128 < (r a).contrib ∧
      flitFd f 39 36 = (r a).fmt ∧ (r a).st ≠ .idle ∧ (r a).st ≠ .abandoned ∧ flitFd f 91 91 = ((s a).slot 15).span.toNat % 2 ∧
      (flitFd f 117 108, n % 128, false) ∉ a) ∧
    flitFd f 117 108 = 1 ∧ n % 128 = 1 ∧
    nextAdd (s []) (r []) { staged := [(1, 1, false)] } false ≠ some (1, 1) ∧
    nextAdd (s [(0, 1, false)]) (r [(0, 1, false)]) { staged := [(1, 1, false)], added := [(0, 1, false)] } false = some (1, 1) := by
  decide +kernel
/-- The check of the sheet at PA 0 is listed. -/
def readState : State :=
  { linkState [] with mem := { hbm := [(tableOff, 0x1F)], hbmChk := [(0, crc32c (List.replicate 256 0))] } }
theorem wit_LinkTransactions_read : let f := flitOf 3 0 0 0 0 0 0 []
    LinkGood 11 f readState ∧ translate readState 15 0 .rd = .pa 0 ∧ nextHop readState 1 = some (0, true) ∧ flitFd f 128 128 = 0 ∧
    crc32c (readState.hbmSheet 0) = readState.hbmCheck 0 ∧ ∀ j, j < 2 → tget 0 readState.mem.ecc (eccKey placeHbm (0 / 256 * 2 + j)) = 0 := by
  have h : readState.hbmSheet 0 = List.replicate 256 0 := by decide +kernel
  exact ⟨wit_LinkGood 11 _ _ _ rfl rfl rfl rfl rfl rfl rfl rfl (by decide +kernel) (by decide +kernel) (by decide +kernel) (by decide +kernel),
    by decide +kernel, by decide +kernel, by decide +kernel, congrArg crc32c h, by decide +kernel⟩
/-- Flits of each type for rank 1, which lies one step on in X. -/
def farFlit (ty vc : Nat) : LinkFlit :=
  let h : BitVec 192 := BitVec.ofNat 192 (ty * 2 ^ 188 + 4095 * 2 ^ 164 + vc * 2 ^ 160 + 2 ^ 118)
  { hdr := h, payload := [], schk := crc32c (padTo [] 256), fcrc := flitCrc h [] (crc32c (padTo [] 256)) }
theorem wit_LinkTransactions_forward : ∀ e ∈ [(1, 1), (2, 0), (3, 1), (4, 3), (6, 0)], LinkGood 11 (farFlit e.1 e.2) (linkState []) ∧
    flitType (farFlit e.1 e.2) = e.1 ∧ flitFd (farFlit e.1 e.2) 127 118 = 1 ∧ (linkState []).rank = 0 ∧
    nextHop (linkState []) 1 = some (0, true) := by
  intro e he
  simp only [List.mem_cons, List.not_mem_nil, or_false] at he
  rcases he with rfl | rfl | rfl | rfl | rfl <;>
    exact ⟨wit_LinkGood 11 _ _ _ rfl rfl rfl rfl rfl rfl rfl rfl (by decide +kernel) (by decide +kernel) (by decide +kernel) (by decide +kernel),
      by decide +kernel, by decide +kernel, by decide +kernel, by decide +kernel⟩

/-- A queue sheet waits at the controller of PA 0, which has served 14 sheets since the last levee-local access: the flit waits. -/
def busyLink (served : Nat) : State :=
  { linkState [] with que := { q := [(7, [{ someEnt 0 [0] with atCtl := [(0, 0)] }])], slots := [(channelOf 0, served)] } }
theorem wit_LinkTransactions_waits : let f := writeFlit
    LinkGood 11 f (busyLink 14) ∧ (busyLink 14).linkUp 11 = true ∧ (busyLink 14).linkHeld = [] ∧ linkReady (busyLink 14) f = false ∧
    linkReady (busyLink 15) f = true ∧ linkReady (linkState []) f = true ∧
    ([Instr.linkWrite 11, Instr.linkAccWrite 11, Instr.linkRead 11] : List (LinkFlit → Fec → Instr)).length = 3 ∧
    ¬ ((busyLink 14).idle = 3 ∧ ((busyLink 14).slot 15).state = .preempted) ∧ jobSlot (busyLink 14) (flitFd f 107 92) = some 15 :=
  ⟨wit_LinkGood 11 _ _ _ rfl rfl rfl rfl rfl rfl rfl rfl (by decide +kernel) (by decide +kernel) (by decide +kernel) (by decide +kernel),
    by decide +kernel⟩
theorem wit_LinkTransactions_turn : ownTurn (linkReam []) {} 1 1 false = false ∧
    ownTurn (linkReam []) { added := [(0, 1, false)] } 1 1 false = true ∧ linkReady (linkState []) accFlit = true ∧
    linkReady (linkState []) (flitOf 3 0 0 0 0 0 0 []) = true := by decide +kernel
/-- A READ that is answered over the port it came in on: XS 1. -/
theorem wit_LinkTransactions_port : let f := flitOf 3 0 1 0 0 0 0 []
    LinkGood 11 f (linkState []) ∧ flitFd f 128 128 = 1 ∧ flitType f = 3 ∧ linkReady (linkState []) f = true ∧ flitFd f 127 118 = 0 :=
  ⟨wit_LinkGood 11 _ _ _ rfl rfl rfl rfl rfl rfl rfl rfl (by decide +kernel) (by decide +kernel) (by decide +kernel) (by decide +kernel),
    by decide +kernel⟩

theorem wit_LinkControlFlits_null : let f : LinkFlit := flitOf 0 0 0 0 0 0 0 []
    let x : Port := { st := .active, acked := 4094, retry := [someTx] }
    x.streaming = true ∧ flitType f = 0 ∧ flitFd f 163 163 = 0 ∧ 0 < (flitFd f 175 164 + 4096 - x.acked) % 4096 ∧
    (flitFd f 175 164 + 4096 - x.acked) % 4096 ≤ x.retry.length ∧ f.fcrc = flitCrc f.hdr f.payload f.schk ∧ x.rxPos = 0 :=
  ⟨rfl, by decide +kernel, by decide +kernel, by decide +kernel, by decide +kernel, rfl, rfl⟩
theorem wit_LinkControlFlits_good : ∀ f ∈ [flitOf 0 0 0 0 0 0 0 [], flitOf 5 4 0 0 0 0 0 [1, 2], flitOf 7 4 0 0 0 0 0 [2],
    flitOf 8 4 0 0 0 0 0 []], LinkGood 11 f (linkState []) := by
  intro f hf
  simp only [List.mem_cons, List.not_mem_nil, or_false] at hf
  rcases hf with rfl | rfl | rfl | rfl <;>
    exact wit_LinkGood 11 _ _ _ rfl rfl rfl rfl rfl rfl rfl rfl (by decide +kernel) (by decide +kernel) (by decide +kernel) (by decide +kernel)
theorem wit_LinkControlFlits : let s := linkState []
    flitType (flitOf 0 0 0 0 0 0 0 []) = 0 ∧ flitType (flitOf 5 4 0 0 0 0 0 [1, 2]) = 5 ∧ s.linkUp 11 = true ∧ tideSlot s = some 15 ∧
    leAt [1, 2] 0 1 = 1 ∧ leAt [1, 2] 1 1 ≠ 3 ∧ leAt [1, 2] 4 4 = (s.slot 15).span.toNat ∧
    8 ≤ flitType (flitOf 8 4 0 0 0 0 0 []) ∧ flitType (flitOf 7 4 0 0 0 0 0 [2]) = 7 ∧
    leAt [2] 0 1 = 2 ∧ (s.port (mate (leAt [2] 12 1 % 12))).failing = false ∧ cwBegins (s.port 11).rxPos = true := by decide +kernel
theorem wit_LinkControlFlits_bad : (flitOf 1 0 0 0 0 0 0 []).fcrc + 1 ≠ flitCrc (flitOf 1 0 0 0 0 0 0 []).hdr [] (flitOf 1 0 0 0 0 0 0 []).schk := by
  have h : ∀ w : Word, w + 1 ≠ w := by
    intro w hw
    have := congrArg BitVec.toNat hw
    simp only [BitVec.toNat_add] at this
    have h1 : (1 : Word).toNat = 1 := rfl
    rw [h1] at this
    omega
  exact h _
/-- Codewords of 5,140 bits: the second flit of one does not begin the next, the third does. -/
theorem wit_LinkControlFlits_rows : ((withPort {}).port 11).streaming = false ∧
    (let x := (withPort { st := .active, rxPos := 2304, rxBad := true }).port 11
     x.streaming = true ∧ cwBegins x.rxPos = false ∧ x.rxBad = true ∧ x.rxPos ≠ 0) ∧
    (let x := (withPort { st := .active, rxPos := 4608 }).port 11
     x.streaming = true ∧ cwBegins x.rxPos = true ∧ x.rxBad = false) := by decide +kernel
/-- The program of linkState in a tide of its own. -/
def tideLink (d : Tide) (st : SlotState) : State :=
  { linkState [] with slots := [(15, { state := st, owner := some 0, save := some 0, job := 9, modules := 2, tide := d })] }
theorem wit_LinkControlFlits_tide (d : Tide) (st : SlotState) (b : Bytes) (h1 : flitFd (flitOf 5 4 0 0 0 0 0 b) 187 176 = 0)
    (h2 : flitFd (flitOf 5 4 0 0 0 0 0 b) 175 164 = 4095) (h3 : flitFd (flitOf 5 4 0 0 0 0 0 b) 163 163 = 0)
    (h4 : flitFd (flitOf 5 4 0 0 0 0 0 b) 162 160 < 5) : LinkGood 11 (flitOf 5 4 0 0 0 0 0 b) (tideLink d st) :=
  wit_LinkGood 11 _ _ _ rfl rfl rfl rfl rfl rfl rfl rfl h1 h2 h3 h4
/-- PASS and RECOUNT of the round that stands, one of another round, an UP of the next span, and an ABORT. -/
theorem wit_LinkControlFlits_decisions : let d : Tide := { arrived := true, upSent := true }
    let s := tideLink d .running
    s.linkUp 11 = true ∧ tideSlot s = some 15 ∧ s.tideOf 15 = d ∧ d.passed = false ∧ d.recount = false ∧
    (let b : Bytes := [2, 1]
     leAt b 0 1 = 2 ∧ leAt b 1 1 = 1 ∧ leAt b 4 4 = (s.slot 15).span.toNat ∧ leAt b 2 2 = d.round) ∧
    (let b : Bytes := [2, 2]
     leAt b 0 1 = 2 ∧ leAt b 1 1 = 2 ∧ leAt b 4 4 = (s.slot 15).span.toNat ∧ leAt b 2 2 = d.round) ∧
    (let b : Bytes := [2, 1, 1]
     leAt b 1 1 ≠ 3 ∧ leAt b 2 2 ≠ d.round) ∧
    (let b : Bytes := [1, 0, 0, 0, 1]
     leAt b 0 1 = 1 ∧ leAt b 1 1 ≠ 3 ∧ leAt b 4 4 = ((s.slot 15).span.toNat + 1) % 2 ^ 32 ∧
     (tideLink { d with passed := true } .running |>.tideOf 15).passed = true) ∧
    leAt [2, 3] 1 1 = 3 ∧ (s.slot 15).teardown = false ∧ s.running = some 15 ∧ (s.slot 15).state = .running ∧
    tideSlot (tideLink d .preempted) = some 15 ∧ ((tideLink d .preempted).slot 15).state = .preempted ∧
    tideSlot (tideLink d .admitted) = none ∧ awaitsStart (tideLink d .admitted) = true ∧ (tideLink d .admitted).linkUp 11 = true ∧
    childDirs s ≠ [] := by decide +kernel

/-- A port in IDENT of rank 0 in a domain of two modules in X, EXTERNAL or not. -/
def identState (port : Nat) (ext : Bool) : State :=
  { ports := [(port, { st := .ident, width := 8 })],
    regs := { val := tset 0 [(Reg.LNK_SHAPE, 0x80000001)] (Reg.port port 8) (if ext then 0x200 else 0) } }
/-- IDENT of the neighbour at rank 1 by its port X−, and one of another rank. -/
def identBytes (rank : Nat) : Bytes := [1, 3] ++ leBytes rank 2 ++ leBytes 0 4 ++ leBytes (shapeRec (identState 0 false)) 2
theorem wit_LinkControlFlits_ident : let s := identState 0 false
    let b := identBytes 1
    LinkGood 0 (flitOf 7 4 0 0 0 0 0 b) s ∧ flitType (flitOf 7 4 0 0 0 0 0 b) = 7 ∧ leAt b 0 1 = 1 ∧ (s.port 0).st = .ident ∧
    (leAt b 4 4, leAt b 8 2) = ((s.reg Reg.LNK_DTAG).toNat, shapeRec s) ∧
    (leAt b 1 1, fld (leAt b 2 2) 9 0) = (mate 0, s.neighbourRank 0) ∧ s.rf Reg.LNK_SHAPE 31 31 = 1 ∧ multiAdmitted s = false ∧
    s.external 0 = false ∧ ¬ ((leAt (identBytes 2) 1 1, fld (leAt (identBytes 2) 2 2) 9 0) = (mate 0, s.neighbourRank 0)) ∧
    (identState 11 true).external 11 = true :=
  ⟨wit_LinkGood 0 _ _ _ rfl rfl rfl rfl rfl rfl rfl rfl (by decide +kernel) (by decide +kernel) (by decide +kernel) (by decide +kernel),
    by decide +kernel⟩

/-! ### The tide and the reductions -/

/-- A program of two modules in slot 15 that has arrived; its rank in a domain of two modules in X. -/
def tideState (st : SlotState) (d : Tide) (rank : Nat) : State :=
  { slots := [(15, { state := st, owner := some 0, modules := 2, tide := d })],
    regs := { val := tset (Reg.reset Reg.LNK_RANK) [(Reg.LNK_SHAPE, 0x80000001)] Reg.LNK_RANK (BitVec.ofNat 32 rank) } }
theorem wit_TideRounds : let d : Tide := { arrived := true, ups := (List.range 6).map fun k => (0, k, 2, 2) }
    let s := tideState .running d 0
    tideSlot s = some 15 ∧ s.tideOf 15 = d ∧ d.arrived = true ∧ d.upSent = false ∧ d.recount = false ∧ d.passed = false ∧
    childrenIn s 15 = true ∧ parentDir s = none ∧ tideSlot ({} : State) = none ∧
    s.running = some 15 ∧ (s.slot 15).state = .running ∧ (s.slot 15).teardown = false ∧
    tideSlot (tideState .preempted d 0) = some 15 ∧ ((tideState .preempted d 0).slot 15).state = .preempted ∧
    ((tideState .running { d with recount := true } 0).tideOf 15).recount = true ∧
    ((tideState .running { d with passed := true } 0).tideOf 15).passed = true := by decide +kernel
theorem wit_TideRounds_parent : let s := tideState .running { arrived := true } 1
    tideSlot s = some 15 ∧ childrenIn s 15 = true ∧ (parentDir s).isSome = true := by decide +kernel
theorem wit_TideRounds_sums :
    let sum (d : Tide) : Nat × Nat := (d.ups.foldl (fun n u => n + u.2.2.1) (ownSent (tideState .running d 0) 15),
      d.ups.foldl (fun n u => n + u.2.2.2) (ownRecv (tideState .running d 0) 15))
    (sum { ups := [(0, 0, 2, 2)] }).1 = (sum { ups := [(0, 0, 2, 2)] }).2 ∧
    (sum { ups := [(0, 0, 2, 1)] }).2 < (sum { ups := [(0, 0, 2, 1)] }).1 := by decide

theorem wit_TideRounds_abort : let d : Tide := { ups := [(0, 0, 1, 2)] }
    let s := tideState .running { d with arrived := true } 0
    let now := d.ups.filter fun u => u.1 == 0
    now.foldl (fun n u => n + u.2.2.1) (ownSent s 15) < now.foldl (fun n u => n + u.2.2.2) (ownRecv s 15) ∧ (s.slot 15).teardown = false ∧
    s.running = some 15 := by decide +kernel
theorem wit_TideRounds_children : childDirs (tideState .running {} 0) = [3] ∧
    childrenIn (tideState .running { ups := [(0, 3, 1, 2)] } 0) 15 = true ∧ childrenIn (tideState .running {} 0) 15 = false := by decide +kernel

/-- A domain of two modules in X with one ream of 32 slices in slot 15; a queue sheet waits at the controller of a PA, which
has served 14 since the last levee-local access, or 15. -/
def reamState (pa slots : Nat) (r : Ream) : State :=
  { slots := [(15, { state := .running, owner := some 0, save := some 0, modules := 2 })], mem := { hbm := [(tableOff, 0x1F)] },
    red := [(15, { reams := [(4095, r)] })], que := { q := [(7, [{ someEnt 0 [pa] with atCtl := [(0, 0)] }])], slots := [(channelOf pa, slots)] },
    regs := { val := [(Reg.LNK_SHAPE, 0x80000001)] } }
def someReam (st : ReamState) : Ream := { raw := [3, 0xAA, 0, 0, 32, 0] ++ List.replicate 10 0 ++ [1, 0], st := st, gbase := some 0 }
theorem wit_Reams_scatter : let r := someReam .scatter
    let s := reamState 32768 15 r
    s.ream? 15 4095 = some r ∧ r.scattering = true ∧ s.sends 15 = true ∧ nthSend s r r.sendPos = some (1, 0, false) ∧
    localSlot s (physOf s 15 (r.src + 32768 * 1 + 256 * 0)) = true ∧ (nextHop s (r.ownerOf s.domN 1)).isSome = true ∧
    localSlot (reamState 32768 14 r) 32768 = false := by decide +kernel
theorem wit_Reams_gather : let r := someReam .gather
    let s := reamState 0 15 r
    s.ream? 15 4095 = some r ∧ r.st = .gather ∧ r.gath = true ∧ s.sends 15 = true ∧ nthGather s r r.gatherPos = some (1, 0) ∧
    r.gbase = some 0 ∧ localSlot s (physOf s 15 (0 + 256 * 0)) = true ∧ (nextHop s 1).isSome = true ∧
    localSlot (reamState 0 14 r) (physOf (reamState 0 14 r) 15 (0 + 256 * 0)) = false ∧ (someReam .fill).scattering = false ∧
    (someReam .fill).st ≠ .gather ∧ (someReam .fill).st ≠ .done := by decide +kernel
/-- The slice 0 of a ream, as its contributions stand. -/
def stagedReam (e : SliceSt) : Ream := { someReam .scatter with slices := [(0, e)] }
/-- Rank 0's turn at its own contribution, which takes the slot of its source. -/
theorem wit_Reams_own : let r := stagedReam {}
    let s := reamState 0 15 r
    s.rank = 0 ∧ nextAdd s r {} false = some (0, 0) ∧ (owned s r).contains 0 = true ∧ r.red = true ∧ r.scattering = true ∧
    localSlot s (physOf s 15 (r.src + 32768 * 0 + 256 * 0)) = true := by decide +kernel
/-- Rank 1's first contribution is staged and its turn has come. -/
theorem wit_Reams_add :
    let e : SliceSt := { staged := [(1, 0, false)], added := [(0, 0, false)], started := some 0 }
    let r := stagedReam e
    let s := reamState 32768 15 r
    s.ream? 15 4095 = some r ∧ (owned s r).contains 0 = true ∧ r.red = true ∧ r.scattering = true ∧ r.thin = false ∧ r.fmt = 0xA ∧
    nextAdd s r e false = some (1, 0) ∧ 1 ≠ s.rank ∧ localSlot s (physOf s 15 (slotVa s r 0 1 0 false)) = true ∧
    localSlot (reamState 32768 14 r) (physOf s 15 (slotVa s r 0 1 0 false)) = false ∧
    ¬ ((e.added.filter fun e => e.2.2 == false).length + 1 = s.domN * r.contrib) ∧ waitingSlice s r 0 = true ∧
    r.lateLogged = false ∧ waitingSlice s r 1 = false := by decide +kernel
/-- Only rank 1's last contribution is missing. -/
theorem wit_Reams_last :
    let e : SliceSt := { staged := [(1, 127, false)], started := some 0,
                         added := (List.range 128).flatMap fun m => (0, m, false) :: if m < 127 then [(1, m, false)] else [] }
    let r := stagedReam e
    let s := reamState 0 15 r
    nextAdd s r e false = some (1, 127) ∧ (e.added.filter fun e => e.2.2 == false).length + 1 = s.domN * r.contrib := by decide +kernel
theorem wit_Reams_none : let r := stagedReam {}
    let s : State := reamState 0 15 { r with st := .fill }
    nextAdd s { r with st := .fill } {} false = none ∧ nextAdd s { r with st := .fill } {} true = none := by decide +kernel

/-- A thinned ream: its first sheets are sparse. -/
theorem wit_Reams_thin : let r : Ream := { someReam .scatter with raw := [7, 0xAA, 0, 0, 32, 0] ++ List.replicate 10 0 ++ [1, 0] }
    let s := reamState 32768 15 r
    s.ream? 15 4095 = some r ∧ r.scattering = true ∧ r.thin = true ∧ s.sends 15 = true ∧ nthSend s r r.sendPos = some (1, 0, false) ∧
    localSlot s (physOf s 15 (r.src + 32768 * 1 + 256 * 0)) = true ∧ nextHop s (r.ownerOf s.domN 1) = some (0, true) := by decide +kernel

/-! ### The host interface -/

/-- Queue 15 of VF8: both rings at depth 2, enabled; the module is READY. -/
def ringed (x : HostQ) : State :=
  { regs := { val := tset 0 (tset 0 (tset 0 [(Reg.BOOT_STATUS, 0x70000000)] (Reg.queue 8 15 0) 0x1000) (Reg.queue 8 15 8) 0x2000)
                       (Reg.queue 8 15 0x10) 0x80000011 },
    host := { q := [(8 * 16 + 15, x)] } }
theorem wit_HostQueues_doorbells : let s := ringed { enabled := true, active := true }
    let x := s.hq 8 15
    let ds := s.sqDepth 8 15
    s.served = true ∧ ({} : State).served = false ∧
    ¬ (x.enabled = false ∨ ds ≤ 1 ∨ (1 + ds - x.sqHead) % ds < (x.sqTail + ds - x.sqHead) % ds) ∧ ds ≤ 2 ∧
    ¬ (x.enabled = false ∨ ds ≤ 0 ∨ (x.cqTail + ds - x.cqHead) % ds < (0 + ds - x.cqHead) % ds) ∧
    (x.cqTail + ds - x.cqHead) % ds < (1 + ds - x.cqHead) % ds := by decide +kernel
theorem wit_HostQueues_enable : let v : Word := 0x800000C1
    let s : State := (ringed {}).setReg (Reg.queue 8 15 0x10) 0x11
    s.served = true ∧ v.getLsbD 31 = true ∧ (s.hq 8 15).active = false ∧ s.rf (Reg.queue 8 15 0x10) 31 31 = 0 ∧ 1 ≤ wfld v 3 0 ∧ wfld v 3 0 ≤ 12 ∧
    1 ≤ wfld v 7 4 ∧ wfld v 7 4 ≤ 12 ∧ s.sqBase 8 15 ≠ 0 ∧ s.cqBase 8 15 ≠ 0 ∧ (0 : Word).getLsbD 31 = false ∧
    (ringed {}).rf (Reg.queue 8 15 0x10) 31 31 = 1 := by decide +kernel
theorem wit_HostQueues_fetch :
    let s := ringed { enabled := true, active := true, sqTail := 1 }
    nextFetch s = some ((8 : FnNo).val, (15 : Fin 16).val) ∧ nextFetch s ≠ some (0, 0) := by decide +kernel
def someCompl : Compl := ⟨8, 15, 3, 0, 0, 0, 0, 0, 0, true, false⟩
/-- Entries of a queue whose vector is masked, or whose batch is under way. -/
theorem wit_HostQueues_write : let s0 := ringed { enabled := true, active := true }
    let s : State := { s0 with host := { s0.host with waiting := [someCompl] } }
    let y := s.hq 8 15
    let d := s.cqDepth 8 15
    s.host.waiting.find? (fun x => x.fn.val == 8 && x.q.val == 15) = some someCompl ∧
    y.enabled = true ∧ (y.cqTail + d - y.cqHead) % d < d - 1 ∧ s.host.batch ≠ some (8 * 16 + 15) ∧
    (tfind ({ s with msixMask := [(8 * 32 + 15, ())] } : State).msixMask (8 * 32 + 15)).isSome = true ∧
    ¬ (({ s with host := { s.host with batch := some (8 * 16 + 15) } } : State).host.batch ≠ some (8 * 16 + 15)) ∧
    s0.host.waiting.find? (fun x => x.fn.val == 8 && x.q.val == 15) = none ∧
    ¬ ((1 + d - y.cqHead) % d < d - 1) := by decide +kernel

/-- A command of a function with an opcode, a slot and bytes of SE_ARG. -/
def cmdOf (fn : FnNo) (op slot : Nat) (arg : Bytes) : HostCmd :=
  ⟨fn, 0, BitVec.ofNat 8 op, 0, 0, BitVec.ofNat 8 slot, 0, 0, 256, 0, padTo arg 96⟩
/-- Slot 15 of VF8 stands in a state; the module is READY. -/
def slot15 (st : SlotState) : State :=
  { slots := [(15, { state := st, owner := some 8, save := some 0 })], regs := { val := [(Reg.BOOT_STATUS, 0x70000000)] } }
theorem wit_Starts (fn : FnNo) (op slot : Nat) (arg : Bytes) (uses : List (Nat × Nat)) (st : SlotState)
    (h : argZero (cmdOf fn op slot arg) uses = true) : Starts (cmdOf fn op slot arg) uses (slot15 st) :=
  ⟨by cases st <;> rfl, (by decide : (0 : Byte).toNat < 2), rfl, h⟩
theorem wit_OwnsSlot (op : Nat) (arg : Bytes) (st : SlotState) : OwnsSlot (cmdOf 8 op 15 arg) 15 (slot15 st) := ⟨rfl, by decide, rfl⟩

/-- Slot 0xFF names the lowest that is EMPTY. An image that passes every check has 18,432 bytes of directory; no such one is written
out here. -/
theorem wit_AdmitAndRelease_into : let c := cmdOf 8 1 0xFF []
    let s := slot15 .admitted
    c.op.toNat = 1 ∧ argZero c [] = true ∧ tearing s c.fn = false ∧ c.slot.toNat = 0xFF ∧ (∀ j < 0, (s.slot j).state ≠ .empty) ∧
    (s.slot 0).state = .empty ∧ (cmdOf 8 1 0 []).slot.toNat = 0 ∧ dmaFails s c.haddr.toNat 256 = false ∧ s.pwr.tripped = false ∧
    ({ s with host := { bad := [(0, 1)] } } : State).host.bad ≠ [] ∧
    dmaFails { s with host := { bad := [(0, 1)] } } c.haddr.toNat 256 = true ∧
    (cmdOf 8 1 15 []).slot.toNat = 15 ∧ (s.slot 15).state ≠ .empty ∧ (s.slot 15).owner = some 8 ∧ (s.slot 15).owner ≠ some (cmdOf 7 1 15 []).fn := by
  decide +kernel
/-- No bytes are no image: reason 0x01. -/
theorem wit_AdmitAndRelease_no_image : ∃ r, loadCheck (slot15 .admitted).domN (slot15 .admitted).rank 1
    ((slot15 .admitted).hostRead 0 0) 0 = .error r ∧ r.reason = 1 := ⟨_, rfl, rfl⟩
theorem wit_AdmitAndRelease_tearing :
    tearing { slots := [(15, { state := .stopping, owner := some 8, teardown := true })] } 8 = true := by decide
theorem wit_AdmitAndRelease_release : (cmdOf 8 5 15 []).op.toNat = 5 ∧ argZero (cmdOf 8 5 15 []) [] = true ∧
    ((slot15 .preempted).slot 15).state ∈ [SlotState.admitted, .preempted, .ended] ∧
    ((slot15 .running).slot 15).state ∉ [SlotState.admitted, .preempted, .ended] := by decide +kernel
theorem wit_AdmitAndRelease_quota : let c := cmdOf 0 9 0 [8, 0, 0, 0, 0xFF, 0x0F, 0, 0, 16, 0, 0, 0]
    argZero c [(32, 1), (36, 4), (40, 1), (42, 2)] = true ∧ c.fn.val = 0 ∧ argAt c 32 1 = 8 ∧ argAt c 36 4 ≤ 0xFFF ∧
    argAt c 40 1 ≤ 16 ∧ argAt c 42 2 ≤ 0x1FF ∧
    (List.range 9).foldl (fun n g => if g = 8 then n else n + (({} : State).quotaOf g).credits) 0 + argAt c 42 2 ≤ 320 ∧
    (cmdOf 8 9 0 []).fn.val ≠ 0 := by decide +kernel
theorem wit_AdmitAndRelease_reserved : argZero (cmdOf 8 0x7F 0 (List.replicate 96 1)) [(32, 96)] = true ∧
    9 < (cmdOf 8 10 0 []).op.toNat ∧ (cmdOf 8 0 0 []).op.toNat = 0 ∧ 1 ≤ (cmdOf 8 1 0 []).op.toNat ∧ (cmdOf 8 9 0 []).op.toNat ≤ 9 := by
  decide +kernel

/-- With the level load in effect the governor prepares; a patch value of 2⁴⁸ lies outside. -/
theorem wit_ProgramCommands_start : let c := cmdOf 8 2 15 []
    c.op.toNat = 2 ∧ argZero c [(32, 14), (48, 64)] = true ∧ ((slot15 .admitted).slot 15).state = .admitted ∧
    (slot15 .admitted).gridBusy = false ∧ (slot15 .admitted).pwr.preload = false ∧
    startPatches c ((slot15 .admitted).slot 15) = some [] ∧ (slot15 .admitted).leads = false ∧
    ({ slot15 .admitted with pwr := { eff := [(Reg.LL_CTRL, 0x80000000)] } } : State).leads = true ∧
    startPatches (cmdOf 8 2 15 []) { (slot15 .admitted).slot 15 with patches := [⟨0, 0, 0, 0, 0, 0x1000000000000⟩] } = none ∧
    startPatches (cmdOf 8 2 15 []) { (slot15 .admitted).slot 15 with patches := [⟨0, 0, 0, 0, 0, 0xFFFFFFFFFFFF⟩] } ≠ none ∧
    (let s : State := { slot15 .admitted with slots := [(0, { state := .running }), (15, { state := .admitted, owner := some 8 })] }
     (s.slot 15).state = .admitted ∧ s.gridBusy = true ∧ (s.slot 15).owner = some c.fn) ∧
    ({ slot15 .admitted with pwr := { preload := true } } : State).pwr.preload = true ∧
    ((slot15 .ended).slot 15).state ≠ .admitted := by decide +kernel
theorem wit_ProgramCommands_others : (cmdOf 8 3 15 []).op.toNat = 3 ∧ (cmdOf 8 4 15 []).op.toNat = 4 ∧ (cmdOf 8 8 15 []).op.toNat = 8 ∧
    argZero (cmdOf 8 3 15 []) [] = true ∧ (slot15 .running).running = some 15 ∧
    ((slot15 .running).slot 15).state = .running ∧ (slot15 .running).ras.hold = false ∧ ((slot15 .running).slot 15).teardown = false ∧
    ({ slot15 .running with ras := { hold := true } } : State).ras.hold = true ∧
    (slot15 .stopping).running = some 15 ∧ ((slot15 .stopping).slot 15).state = .stopping ∧ ((slot15 .stopping).slot 15).ending = none ∧
    ((slot15 .ended).slot 15).state ≠ .running ∧ ((slot15 .ended).slot 15).state ≠ .stopping ∧
    ({ (slot15 .stopping).slot 15 with ending := some (3, 0, none) } : Slot).ending ≠ none ∧ ((slot15 .preempted).slot 15).state = .preempted ∧
    (slot15 .preempted).gridBusy = false ∧ (slot15 .preempted).pwr.preload = false ∧ ((slot15 .ended).slot 15).state ≠ .preempted := by
  decide +kernel
theorem wit_ProgramCommands_turned : 16 ≤ (cmdOf 8 3 16 []).slot.toNat ∧ (cmdOf 8 3 14 []).slot.toNat < 16 ∧
    ((slot15 .running).slot 14).owner = none ∧ ((slot15 .running).slot 15).owner = some 8 ∧ (8 : FnNo) ≠ (cmdOf 0 3 15 []).fn ∧
    (∀ op ∈ [2, 3, 4, 5, 6, 7, 8], (cmdOf 8 op 16 []).op.toNat = op) ∧
    argZero (cmdOf 8 7 16 []) [(32, 1), (36, 4)] = true ∧ argZero (cmdOf 8 2 16 []) [(32, 14), (48, 64)] = true := by decide +kernel

/-- Slot 15 runs alone with code in tile 2303, whose core still runs, or has ended. -/
def runs15 (c : CoreState) : State :=
  { slots := [(15, { state := .running, owner := some 8, save := some 0, coded := [2303] })], tiles := [(2303, { core := c })],
    regs := { val := [(Reg.BOOT_STATUS, 0x70000000), (Reg.CLK_POLDER_STATE, 0)] } }
theorem wit_ProgramCommands_abort : let s := runs15 .running
    s.running = some 15 ∧ (s.slot 15).state = .running ∧ allStopped s 15 = false ∧ (s.slot 15).teardown = false ∧
    allStopped (runs15 .ended) 15 = true ∧ ((slot15 .preempted).slot 15).state ≠ .running := by decide +kernel
theorem wit_ProgramCommands_grid : ((slot15 .admitted).slot 15).save = some 0 ∧ argAt (cmdOf 8 2 15 []) 40 4 = 0 := by decide +kernel

/-- Slot 15 of VF8 maps VA 0 to PA 0. -/
def mapped15 (st : SlotState) : State := { slot15 st with mem := { hbm := [(tableOff, 0x1F)] } }
/-- A memory that agrees with it on the table entry maps the first sheets alike. -/
theorem wit_CopiesAndAperture_writes (m : Mem) (h : ∀ a, ¬ (∃ j < 2, 256 * j ≤ a ∧ a < 256 * j + 256) → mget m a = mget (mapped15 .admitted).mem.hbm a) :
    ∀ j < 2, hostPa { mapped15 .admitted with mem := { (mapped15 .admitted).mem with hbm := m } } 15 (0 + 256 * j) .wr = some (256 * j) := by
  have hm : ∀ a, 512 ≤ a → mget m a = mget (mapped15 .admitted).mem.hbm a := fun a ha => h a (by rintro ⟨j, h1, h2, h3⟩; omega)
  have hb : mread m 0x3C000000 8 = [0x1F, 0, 0, 0, 0, 0, 0, 0] := by
    simp only [mread]
    rw [hm _ (by omega), hm _ (by omega), hm _ (by omega), hm _ (by omega), hm _ (by omega), hm _ (by omega), hm _ (by omega), hm _ (by omega)]
    decide
  intro j hj
  have hj : j = 0 ∨ j = 1 := by omega
  rcases hj with rfl | rfl <;> simp [hostPa, Machine.translate, State.slot, tget, mapped15, slot15, State.hbmB, hb, leNat, pageOf, fld, bitN, Right.bit,
    (by decide : Nat.testBit 31 1 = true), (by decide : Nat.testBit 31 3 = true)]
theorem wit_CopiesAndAperture : let c : HostCmd := { cmdOf 8 6 15 [] with len := 512 }
    let s := mapped15 .admitted
    c.op.toNat = 6 ∧ copyAligned c = true ∧ c.len.toNat = 256 * 2 ∧ argZero c [] = true ∧ hostPa s 15 c.va.toNat .wr = some 0 ∧
    (∀ j < 2, (256 * j) % 256 = 0 ∧ dmaFails s (c.haddr.toNat + 256 * j) 256 = false) ∧
    hostPa s 15 0x40000000 .wr = none ∧ dmaFails { s with host := { bad := [(0, 1)] } } c.haddr.toNat 256 = true ∧
    argZero c [(32, 1), (36, 4)] = true ∧ (∀ j < 2, hostPa s 15 (c.va.toNat + 256 * j) .rd = some (256 * j)) ∧ argAt c 32 1 = 0 := by
  decide +kernel
theorem wit_CopiesAndAperture_deferred : let c (moment : Nat) := cmdOf 8 7 15 [BitVec.ofNat 8 moment]
    let s : State := { mapped15 .ended with host := { waits := [(opCopyOut, c 2)] } }
    (c 2).op.toNat = 7 ∧ copyAligned (c 2) = true ∧ argZero (c 2) [(32, 1), (36, 4)] = true ∧ argAt (c 2) 32 1 = 2 ∧ argAt (c 1) 32 1 = 1 ∧
    (c 1).len.toNat ≤ 0x4000000 ∧ ((mapped15 .running).slot 15).state ≠ .ended ∧
    s.host.waits.contains (opCopyOut, c 2) = true ∧ hostPa s 15 (c 2).va.toNat .rd = some 0 ∧ (s.slot 15).state = .ended ∧
    (mapped15 .ended).host.waits.contains (opCopyOut, c 2) = false := by decide +kernel
/-- Span 0 of slot 15 is at its boundary. -/
theorem wit_CopiesAndAperture_boundary : let c := cmdOf 8 7 15 [1]
    let p : Slot := { state := .running, owner := some 8, save := some 0, coded := [0], modules := 1 }
    let s : State := { mapped15 .running with slots := [(15, p)], tiles := [(0, { core := .arrived 0 0 })], host := { waits := [(opCopyOut, c)] } }
    (s.slot 15).state ≠ .ended ∧ argAt c 32 1 = 1 ∧ s.running = some 15 ∧ boundaryReady 15 s = true ∧
    (s.slot 15).span.toNat = argAt c 36 4 ∧ hostPa s 15 c.va.toNat .rd = some 0 := by decide +kernel
theorem wit_CopiesAndAperture_aperture : let s := (mapped15 .admitted).setReg Reg.HIF_B4_SEL 0x1F
    let j := s.rf Reg.HIF_B4_SEL 3 0
    let va := s.rf Reg.HIF_B4_BASE 11 0 * 2 ^ 36 + (0xFF : BitVec 36).toNat
    s.served = true ∧ s.rf Reg.HIF_B4_SEL 4 4 = 1 ∧ (s.slot j).state ≠ .empty ∧ va = 0xFF ∧ j = 15 ∧
    (∀ i < 2, hostPa s 15 (256 * i) .wr = some (256 * i) ∧ hostPa s 15 (256 * i) .rd = some (256 * i)) ∧
    hostPa s 15 0x40000000 .wr = none ∧ hostPa s 15 0x40000000 .rd = none ∧ (mapped15 .admitted).rf Reg.HIF_B4_SEL 4 4 = 0 := by
  decide +kernel
/-- Two bytes from 0xFF on touch sheets 0 and 1. -/
theorem wit_CopiesAndAperture_touched : ∀ i, 0xFF / 256 ≤ i ∧ 256 * i < 0xFF + 2 ↔ i = 0 ∨ i = 1 := by omega

/-- A copy of 512 bytes from a RUNNING slot, with a queue that can answer. -/
theorem wit_CopiesAndAperture_running : let c : HostCmd := { cmdOf 8 7 15 [] with len := 512 }
    let s : State := { mapped15 .running with host := { q := [(8 * 16 + 0, { enabled := true })] } }
    c.op.toNat = 7 ∧ copyAligned c = true ∧ c.len.toNat = 256 * 2 ∧ argAt c 32 1 = 0 ∧ (s.hq 8 0).enabled = true ∧ s.host.accepted = [] ∧
    (∀ j < 2, hostPa s 15 (c.va.toNat + 256 * j) .rd = some (256 * j)) ∧ (s.slot 15).state = .running := by decide +kernel

/-- A slot of VF8 in each state that a reset meets. -/
theorem wit_FunctionResets_slots :
    (let s := runs15 .running
     s.running = some 15 ∧ (s.slot 15).state = .running ∧ (s.slot 15).owner = some 8 ∧ allStopped s 15 = false) ∧
    (∀ st ∈ [SlotState.admitted, .preempted, .ended, .stopping, .restoring], ((slot15 st).slot 15).state = st ∧ ((slot15 st).slot 15).owner = some 8 ∧
      (slot15 st).slots.all (fun e => e.2.state != .running) = true) ∧
    ({ (slot15 .ended).slot 15 with frames := [(3, 1)] } : Slot).frames = [(3, 1)] ∧ (8 : FnNo).val ≠ 0 ∧ (8 : FnNo) == 8 := by decide +kernel
theorem wit_FunctionResets_alone : ∀ j, j ≠ 15 → ((runs15 .running).slot j).state ≠ .running ∧ ((runs15 .running).slot j).state ≠ .stopping := by
  intro j h
  have : (runs15 .running).slot j = {} := by simp [runs15, State.slot, tget, Ne.symm h]
  rw [this]
  decide
theorem wit_FunctionResets_stopped : ∀ j, ((slot15 .stopping).slot j).state ≠ .running := by
  intro j
  by_cases h : j = 15
  · subst h; decide
  · have : (slot15 .stopping).slot j = {} := by simp [slot15, State.slot, tget, Ne.symm h]
    rw [this]
    decide
theorem wit_FunctionResets_perst : (starting 4 (.ok 5) false).pcieUp = true ∧ (starting 0 (.ok 5) false).pcieUp = false ∧
    ({ starting 4 (.ok 5) false with md := { supply := .off } } : State).pcieUp = false := by decide +kernel

theorem wit_FunctionResets : (8 : FnNo).val ≠ 0 ∧ ({ host := { link := true } } : State).host.link = true ∧ ({ host := { link := true } } : State).host.d3 = false ∧
    ({ host := { d3 := true } } : State).host.d3 = true ∧ ({ host := { link := false } } : State).host.link = false := by decide

/-! ### Registers, logbook, background tasks and management -/

theorem wit_EventCounters :
    (Reg.info (regAt ⟨0, BitVec.ofNat 24 Reg.ERR_CHECK_COUNT⟩)).map (·.counter) = some true ∧
    ((0 : BitVec 64).setWidth 32 : Word) = 0 ∧ ((1 : BitVec 64).setWidth 32 : Word) ≠ 0 ∧
    (starting 4 (.ok 5) false).served = true ∧ (starting 3 (.ok 5) false).served = false := by decide +kernel
theorem wit_PairLatches : let n := Reg.CLK_STRETCH_LO
    let a : RegAddr := ⟨0, BitVec.ofNat 24 n⟩
    let b : RegAddr := ⟨0, BitVec.ofNat 24 (n + 4)⟩
    Reg.isPair (regAt a) = true ∧ regAt b = regAt a + 4 ∧ b.bar = a.bar ∧ ReadWidth.byte 3 ≠ .quad ∧
    tfind ({ latch := [(n, 5)] } : State).latch (regAt a) = some 5 ∧ tfind ({} : State).latch (regAt a) = none ∧
    Reg.isPair (regAt ⟨0, BitVec.ofNat 24 Reg.PWR_CAP⟩) = false ∧
    (∃ t, exec (.registerWrite a .word 0) (starting 4 (.ok 5) false) = .next t) ∧
    regAt b ≠ Reg.BOOT_RESET ∧ regAt b + 4 ≠ Reg.BOOT_RESET :=
  ⟨by decide +kernel, by decide +kernel, rfl, by decide, by decide +kernel, rfl, by decide +kernel, ⟨_, rfl⟩, by decide +kernel, by decide +kernel⟩
theorem wit_RegisterAccesses : ∀ n ∈ [Reg.PWR_CAP, Reg.ERR_STATUS, Reg.BOOT_STATUS], (⟨0, BitVec.ofNat 24 n⟩ : RegAddr).bar = 0 ∧
    (⟨0, BitVec.ofNat 24 n⟩ : RegAddr).off.toNat = n := by decide

theorem wit_LogAndBackground : let s : State := starting 4 (.ok 5) false
    Ev.known Ev.LOG_CLEARED = true ∧ Ev.known 0xFFFF = false ∧ s.served = true ∧ s.log.busy = false ∧
    ({ log := { busy := true } } : State).log.busy = true ∧ ({ log := { busy := true } } : State).log.staging = [] ∧
    (onGrid {}).running = some 0 ∧ ((onGrid {}).slot 0).state = .running ∧ ((onGrid {}).slot 0).ending = none ∧
    ((onGrid {}).slot 0).teardown = false := by decide +kernel
theorem wit_EventCounters_now : let s := starting 4 (.ok 5) false
    s.cntNow Reg.ERR_CHECK_COUNT = 0 ∧ (s.bump Reg.ERR_CHECK_COUNT 1).cntNow Reg.ERR_CHECK_COUNT ≠ 0 := by decide +kernel
theorem wit_RegisterAccesses_served : (starting 4 (.ok 5) false).served = true ∧ (starting 3 (.ok 5) false).served = false ∧
    (Reg.info (regAt ⟨0, BitVec.ofNat 24 Reg.ERR_CHECK_COUNT⟩)).map (·.counter) = some true ∧
    10 ≤ wfld 0x000A0258 31 16 ∧ wfld 0x000A0258 31 16 ≤ 10000 ∧ 600 ≤ wfld 0x000A0258 15 0 ∧ ¬ (10 ≤ wfld 0x00090257 31 16) ∧
    ¬ (600 ≤ wfld 0x00090257 15 0) := by decide +kernel

/-- A clear under way between its first cycle and its last. -/
theorem wit_LogAndBackground_clear : let s : State := { log := { busy := true, clearAt := 8191 } }
    s.log.busy = true ∧ s.log.clearAt = 8191 := by decide
theorem wit_LogAndBackground_may : (starting 4 (.ok 5) false).stage ≠ 8 ∧ (starting 8 (.ok 5) false).stage = 8 ∧ powered ({} : State) 2 = true ∧
    (withPort { st := .active }).linkUp 11 = true ∧ ((withPort { st := .active }).port 11).idle = true ∧
    ((withPort { st := .active, resend := [someTx] }).port 11).idle = false ∧
    (let s : State := { onGrid {} with ras := { age := [(5, 100000)] } }
     s.stage ≠ 8 ∧ 5 ∉ s.ras.deferred ∧ taskDue s 5 = true) := by decide +kernel

theorem wit_LogAndBackground_limits : (∃ c, Ev.known c = true ∧ (({} : State).log.lim c).burst ≠ 0) ∧
    ∃ c, Ev.known c = true ∧ (({} : State).log.lim c).burst = 0 :=
  ⟨⟨Ev.ECC_CORRECTED, by decide +kernel⟩, ⟨Ev.THERMAL_TRIP, by decide +kernel⟩⟩
/-- A task that needs a window, with a program on the grid and one open; a task that a register switches off; a recalibration
of a port that is up, and of one that is not; a task one cycle of 10 μs before the end of its period. -/
theorem wit_LogAndBackground_tasks : let s : State := { onGrid {} with ras := { win := 1, age := [(5, 99999)] } }
    (5 : Fin 6).val ∈ [0, 3, 5] ∧ s.taskOff 5 = false ∧ s.running ≠ none ∧ 0 < s.ras.win ∧ ¬ (0 < (onGrid {}).ras.win) ∧
    (s.setReg Reg.RAS_MAINT_CTRL 0x3F).taskOff 5 = true ∧
    (withPort { st := .active }).linkUp 11 = true ∧ (withPort {}).linkUp 11 = false ∧ (withPort {}).taskOff 4 = false ∧
    taskDue s 5 = false ∧ taskDue { s with ras := { age := [(5, 100000)] } } 5 = true ∧ 5 ∉ s.ras.deferred ∧
    5 ∈ ({ ras := { deferred := [5] } } : State).ras.deferred := by decide +kernel

/-- READY; SPDM at a connection state over DOE. -/
def ready (conn sec : Nat) : State :=
  (({} : State).setReg Reg.BOOT_STATUS 0x70000000).setReg Reg.SEC_SPDM (BitVec.ofNat 32 conn) |>.setReg Reg.SEC_STATUS (BitVec.ofNat 32 sec)
theorem wit_Management : let s := ready 0 0
    4 ≤ s.stage ∧ s.stage ≤ 7 ∧ (starting 4 (.ok 5) false).stage = 4 ∧ (starting 3 (.ok 5) false).stage = 3 ∧
    (starting 8 (.ok 5) false).stage = 8 ∧ (starting 9 (.ok 5) false).stage = 9 ∧
    600 ≤ (600 : BitVec 16).toNat ∧ (2400 : BitVec 16).toNat ≤ 2400 ∧ (599 : BitVec 16).toNat < 600 ∧
    2400 < (2401 : BitVec 16).toNat ∧ (0 : Byte) ≠ 1 ∧ (4 : Byte) ≠ 3 ∧ s.md.supply = .on ∧ s.boot.busy = none := by decide +kernel
theorem wit_Management_spdm : spdmUp (ready 0 0) .doe = true ∧ spdmUp (ready 0 0) .mctp = true ∧ spdmUp ({} : State) .doe = false ∧
    spdmState (ready 0 0) .doe < 1 ∧ 1 ≤ spdmState (ready 1 0) .doe ∧ spdmState (ready 1 0) .doe < 2 ∧
    2 ≤ spdmState (ready 2 0) .doe ∧ spdmState (ready 2 0) .doe < 3 ∧ 3 ≤ spdmState (ready 3 0) .doe ∧
    spdmAsym ∈ [spdmAsym, spdmHash] ∧ spdmHash ∈ [spdmAsym, spdmHash] ∧ ¬ (spdmAsym ∈ [spdmHash] ∧ spdmHash ∈ [spdmHash]) ∧
    (ready 3 0x40000000).rf Reg.SEC_STATUS 30 30 = 1 ∧ (ready 3 0x40000000).rf Reg.SEC_STATUS 29 29 = 0 ∧
    (ready 3 0).rf Reg.SEC_STATUS 30 30 = 0 ∧ 1 ≤ (20 : Byte).toNat ∧ (20 : Byte).toNat ≤ 20 := by decide +kernel

theorem wit_SlotWordsRoundTrip : slotPlace (.add u0 31 30 29) = some (0, 1) ∧ (Instr.add u0 31 30 29).wf = true ∧
    decodeSlot 0 1 0x043FEE80 = .op (.add u0 31 30 29) ∧ 1 < 8 := by decide +kernel
theorem wit_StepsKeepInvariant : ∃ t, exec (.delay u0 3) (onGrid {}) = .next t := ⟨_, rfl⟩
theorem wit_StepsKeepInvariant_canonical : (onGrid {}).Canonical ∧ ∃ t, step (onGrid {}) = .next t := ⟨⟨rfl, rfl, rfl, rfl, rfl⟩, ⟨_, rfl⟩⟩

end Sys2Proof.Tests
end

section
/-!
PROOFS. Event counters (R14): what an event leaves in a counter, and what an access to one does.
-/
namespace Sys2Proof.Machine

/-! ### What an event leaves in the registers -/

section
variable (s : State) (n : RegNo) (k : Nat)

/-- An event advances its counter, which saturates (R14). -/
theorem reg_bump : ((s.bump n k).reg n).toNat = min 0xFFFFFFFF ((s.reg n).toNat + k) := by
  have h : (s.bump n k).reg n = BitVec.ofNat 32 (min 0xFFFFFFFF ((s.reg n).toNat + k)) := reg_setReg ..
  rw [h, BitVec.toNat_ofNat]
  omega

@[simp] theorem cntNow_bump : (s.bump n k).cntNow n = s.cntNow n + k := tget_tset_same ..

theorem reg_bump_other {r : RegNo} (h : r ≠ n) : (s.bump n k).reg r = s.reg r := reg_setReg_other s _ h.symm

theorem cntNow_bump_other {r : RegNo} (h : r ≠ n) : (s.bump n k).cntNow r = s.cntNow r := tget_tset_other _ _ _ h.symm

end

/-! ### Where the counters stand in the register map -/

namespace Reg

/-- A definition found by number stands in the list. -/
theorem mem_of_look {l : List (Nat × RegDef)} {o : Nat} {d : RegDef} (h : look l o = some d) : (o, d) ∈ l := by
  induction l with
  | nil => simp [look] at h
  | cons e r ih =>
    obtain ⟨k, d'⟩ := e
    simp only [look] at h
    split at h
    · simp_all
    · exact List.mem_cons_of_mem _ (ih h)

/-- No queue register counts events (R349). -/
theorem look_queueDefs_counter {o : Nat} {d : RegDef} (h : look queueDefs o = some d) : d.counter = false :=
  (by decide : ∀ e ∈ queueDefs, e.2.counter = false) _ (mem_of_look h)

/-- The counter of a function stands at offset 4 of its registers (R365). -/
theorem look_fnDefs_counter {o : Nat} {d : RegDef} (h : look fnDefs o = some d) (hc : d.counter = true) : o = 4 :=
  (by decide : ∀ e ∈ fnDefs, e.2.counter = true → e.1 = 4) _ (mem_of_look h) hc

/-- The counters of a link port stand at 0x0C to 0x18 of its registers (R320). -/
theorem look_portDefs_counter {o : Nat} {d : RegDef} (h : look portDefs o = some d) (hc : d.counter = true) :
    o ∈ [0x0C, 0x10, 0x14, 0x18] :=
  (by decide : ∀ e ∈ portDefs, e.2.counter = true → e.1 ∈ [0x0C, 0x10, 0x14, 0x18]) _ (mem_of_look h) hc

/-- An event counter is one of a function (R365), one of a link port (R320), or has a number of its own. -/
theorem counter_cases {n : Nat} {d : RegDef} (h : info n = some d) (hc : d.counter = true) :
    (∃ f, n = fn f 4) ∨ (∃ k, k < 12 ∧ ∃ r ∈ [0x0C, 0x10, 0x14, 0x18], n = port k r) ∨ (n, d) ∈ defs := by
  unfold info at h
  dsimp only [RegNo] at h
  by_cases hf : n / 0x1000000 = 0
  · rw [if_pos hf] at h
    have hn : n % 0x1000000 = n := by omega
    rw [hn] at h
    split at h
    · simp [look_queueDefs_counter h] at hc
    split at h
    · have := look_fnDefs_counter h hc
      exact .inl ⟨0, by simp only [fn, ↓reduceIte]; omega⟩
    split at h
    · refine .inr (.inl ⟨(n - 0x50100) / 0x40, by omega, _, look_portDefs_counter h hc, ?_⟩)
      simp only [port]
      omega
    split at h
    · split at h
      · cases h; cases hc
      · cases h
    split at h
    · cases h; cases hc
    split at h
    · cases h; cases hc
    · exact .inr (.inr (mem_of_look h))
  · rw [if_neg hf] at h
    split at h
    · simp [look_queueDefs_counter h] at hc
    split at h
    · have := look_fnDefs_counter h hc
      exact .inl ⟨n / 0x1000000, by simp only [fn, if_neg hf]; omega⟩
    · cases h

end Reg

/-! ### What makes a register one that only counts -/

/-- Single registers that a read computes a field of, or a write of which does more than place its bits. -/
def ruledRegs : List RegNo :=
  [0x130, Reg.CLK_OPSEL, Reg.CLK_STATUS, Reg.CLK_DROOP_TH, Reg.CLK_FB_THRESH, Reg.CLK_FB_MARGIN, Reg.CLK_SLUICE_MON,
   Reg.MEM_HBM_RESERVED, Reg.MEM_HBM_FREE, Reg.MEM_HBM_FREE_1G, Reg.TRN_WV_STATUS, Reg.LNK_CTRL, Reg.LNK_SHAPE, Reg.LNK_RANK,
   Reg.LNK_DTAG, Reg.LNK_STATUS, Reg.MESH_VC2_MAX, Reg.LL_BAND, Reg.RED_STATUS, Reg.RED_REAM_STATE, Reg.RED_REAM_FILL,
   Reg.RED_DB_LO, Reg.RED_DB_HI, Reg.LOG_CTRL, Reg.LOG_STATUS, Reg.LOG_SEQ_NEXT_LO, Reg.LOG_SEQ_NEXT_HI, Reg.LOG_RATE,
   Reg.LOG_RSUPP, Reg.BOOT_RESET, Reg.BOOT_FL_CMD, Reg.SEC_STATUS, Reg.SEC_SVN_CMD, Reg.SEC_ROM_VER, Reg.ERR_STATUS,
   Reg.RAS_REPAIR, Reg.RAS_MAINT_STATUS, Reg.RAS_TASK_CFG, Reg.RAS_TASK_AGE]

/-- Ranges of such registers, from a number up to another: the spares and repairs, the space of a program, the windows of
the logbook and of the flash, the sensors and the doorbells. -/
def ruledRanges : List (Nat × Nat) :=
  [(0x100, 0x130), (Reg.MEM_RSV_FREE_LN, Reg.MEM_PSEL), (Reg.MEM_P_HBM, Reg.MEM_P_SAVE + 1), (0x71000, 0x72000),
   (0x81000, 0x82000), (0xA0000, 0xA0100), (0x100000, 0x109000)]

/-- The number has a rule of its own for reads or writes. -/
def ruled (n : RegNo) : Bool := ruledRegs.contains n || ruledRanges.any fun r => decide (r.1 ≤ n) && decide (n < r.2)

/-- A register that only counts: a whole word outside the queues and without a rule of its own; of a function or of a link
port it is one of the counters there. -/
structure OnlyCounts (n : RegNo) : Prop where
  aligned : n % 4 = 0
  noRule : ruled n = false
  noQueue : queueOf n = none
  inFn : ∀ f r, fnRegOf n = some (f, r) → r = 4
  inPort : ∀ k r, portRegOf n = some (k, r) → 0x0C ≤ r ∧ r < 0x20

theorem ruled_eq_false_iff (n : RegNo) :
    ruled n = false ↔ (∀ r ∈ ruledRegs, n ≠ r) ∧ ∀ r ∈ ruledRanges, ¬ (r.1 ≤ n ∧ n < r.2) := by
  simp only [ruled, Bool.or_eq_false_iff, List.any_eq_false, Bool.and_eq_true, decide_eq_true_eq, List.contains_eq_mem,
    decide_eq_false_iff_not]
  exact and_congr_left' ⟨fun h r hr he => h (he ▸ hr), fun h hn => h n hn rfl⟩

/-- No rule of its own stands past the doorbells. -/
theorem ruled_of_ge {n : Nat} (h : 0x109000 ≤ n) : ruled n = false := by
  refine (ruled_eq_false_iff n).2 ⟨fun r hr he => ?_, fun r hr hn => ?_⟩
  · have : r < 0x109000 := (by decide : ∀ r ∈ ruledRegs, r < 0x109000) r hr
    exact absurd h (he ▸ Nat.not_le.2 this)
  · have : r.2 ≤ 0x109000 := (by decide : ∀ r ∈ ruledRanges, r.2 ≤ 0x109000) r hr
    exact absurd (Nat.lt_of_le_of_lt h hn.2) (Nat.not_lt.2 this)

/-- The counter of a function only counts. -/
theorem onlyCounts_fn (f : Nat) : OnlyCounts (Reg.fn f 4) := by
  by_cases hf : f = 0
  · subst hf
    exact ⟨rfl, by decide, rfl, by simp [fnRegOf, Reg.fn], by simp [portRegOf, Reg.fn]⟩
  · have hn : Reg.fn f 4 = 0x1000000 * f + 0x704 := by simp [Reg.fn, hf]
    have hd : (0x1000000 * f + 0x704) / 0x1000000 = f := by omega
    have hm : (0x1000000 * f + 0x704) % 0x1000000 = 0x704 := by omega
    have ha : (0x1000000 * f + 0x704) % 4 = 0 := by omega
    have hp : ¬ 0x1000000 * f + 0x704 < 0x50400 := by omega
    rw [hn]
    refine ⟨ha, ruled_of_ge (by omega), ?_, ?_, ?_⟩
    · simp [queueOf, hd, hm, hf]
    · simp [fnRegOf, hd, hm, hf]
    · simp [portRegOf, hp]

/-- The counters of a link port only count. -/
theorem onlyCounts_port : ∀ k < 12, ∀ r ∈ [0x0C, 0x10, 0x14, 0x18], OnlyCounts (Reg.port k r) := by
  have key : ∀ k < 12, ∀ r ∈ [0x0C, 0x10, 0x14, 0x18], Reg.port k r % 4 = 0 ∧ ruled (Reg.port k r) = false ∧
      queueOf (Reg.port k r) = none ∧ fnRegOf (Reg.port k r) = none ∧ portRegOf (Reg.port k r) = some (k, r) := by decide +kernel
  intro k hk r hr
  obtain ⟨ha, hru, hq, hf, hp⟩ := key k hk r hr
  refine ⟨ha, hru, hq, by simp [hf], fun k' r' h => ?_⟩
  obtain ⟨rfl, rfl⟩ : k = k' ∧ r = r' := by simpa [hp] using h
  exact (by decide : ∀ r ∈ [0x0C, 0x10, 0x14, 0x18], 0x0C ≤ r ∧ r < 0x20) r hr

/-- The counters with a number of their own only count. -/
theorem onlyCounts_own {e : RegNo × RegDef} (h : e ∈ Reg.defs) (hc : e.2.counter = true) : OnlyCounts e.1 := by
  have key : ∀ e ∈ Reg.defs, e.2.counter = true →
      e.1 % 4 = 0 ∧ ruled e.1 = false ∧ queueOf e.1 = none ∧ fnRegOf e.1 = none ∧ portRegOf e.1 = none := by decide +kernel
  obtain ⟨ha, hr, hq, hf, hp⟩ := key e h hc
  exact ⟨ha, hr, hq, by simp [hf], by simp [hp]⟩

theorem onlyCounts_of_counter {n : RegNo} {d : RegDef} (h : Reg.info n = some d) (hc : d.counter = true) : OnlyCounts n := by
  obtain ⟨f, rfl⟩ | ⟨k, hk, r, hr, rfl⟩ | hm := Reg.counter_cases h hc
  · exact onlyCounts_fn f
  · exact onlyCounts_port k hk r hr
  · exact onlyCounts_own hm hc

/-! ### Accesses to a register that only counts -/

section
variable (s : State) {n : RegNo}

theorem viewLow_of_not_ruled (w : Word) (h : ruled n = false) : viewLow s n w = w := by
  obtain ⟨hr, hi⟩ := (ruled_eq_false_iff n).1 h
  have hspace : ¬ (Reg.MEM_P_HBM ≤ n ∧ n ≤ Reg.MEM_P_SAVE) := fun hs =>
    hi (Reg.MEM_P_HBM, Reg.MEM_P_SAVE + 1) (by simp [ruledRanges]) ⟨hs.1, Nat.lt_succ_of_le hs.2⟩
  simp only [ruledRegs, ruledRanges, List.forall_mem_cons] at hr hi
  simp [viewLow, hr, hi, hspace]

theorem viewHigh_of_not_ruled (w : Word) (h : ruled n = false) : viewHigh s n w = w := by
  obtain ⟨hr, hi⟩ := (ruled_eq_false_iff n).1 h
  simp only [ruledRegs, ruledRanges, List.forall_mem_cons] at hr hi
  simp [viewHigh, hr, hi]

/-- A read of a register that only counts returns the stored word. -/
theorem view_of_onlyCounts (h : OnlyCounts n) : s.view n = s.reg n := by
  obtain ⟨-, hr, hq, hf, hp⟩ := h
  unfold State.view
  rw [hq]
  cases hfn : fnRegOf n with
  | some x =>
    obtain ⟨f, r⟩ := x
    obtain rfl : r = 4 := hf f r hfn
    simp [viewFn]
  | none =>
    cases hpn : portRegOf n with
    | some x =>
      obtain ⟨k, r⟩ := x
      obtain ⟨hlo, hhi⟩ := hp k r hpn
      simp [viewPort, show r ≠ 0 by omega, show r ≠ 4 by omega, show ¬ 0x20 ≤ r by omega]
    | none => simp [viewLow_of_not_ruled s _ hr, viewHigh_of_not_ruled s _ hr]

theorem discarded_of_onlyCounts (v : Word) (h : OnlyCounts n) : discarded n v s = false := by
  obtain ⟨hr, hi⟩ := (ruled_eq_false_iff n).1 h.noRule
  simp only [ruledRegs, ruledRanges, List.forall_mem_cons] at hr hi
  simp [discarded, hr, h.noQueue]

/-- A write of a register that only counts goes by its access codes alone. -/
theorem writeWord_of_onlyCounts (bar : Nat) (v : Word) {d : RegDef} (h : OnlyCounts n) (hi : Reg.info n = some d) :
    writeWord bar n v s = writePlain n d v s := by
  obtain ⟨hr, hg⟩ := (ruled_eq_false_iff n).1 h.noRule
  simp only [ruledRegs, ruledRanges, List.forall_mem_cons] at hr hg
  simp only [writeWord, hr, hg, h.aligned, h.noQueue, hi, discarded_of_onlyCounts s v h, ne_eq, not_true_eq_false, if_false,
    Bool.false_eq_true]
  split
  · rename_i k hk
    exact absurd (h.inPort k 8 hk).1 (by decide)
  · rfl

/-- A write of 0 to an event counter leaves what the events of the cycle have counted, one of any other value has no effect (R14,
R16). -/
theorem writeWord_counter (bar : Nat) (v : Word) {d : RegDef} (hi : Reg.info n = some d) (hc : d.counter = true) :
    writeWord bar n v s = if v = 0 then s.setReg n (BitVec.ofNat 32 (min 0xFFFFFFFF (s.cntNow n))) else s := by
  rw [writeWord_of_onlyCounts s bar v (onlyCounts_of_counter hi hc) hi, writePlain, if_pos hc]

theorem exec_registerWrite_word (a : RegAddr) (v : BitVec 64) (h : s.served = true) :
    exec (.registerWrite a .word v) s = .next (writeWord a.bar.val (regAt a) (v.setWidth 32) s) := by
  show Host.Outcome.next (s.bar0 (registerWrite a .word v)) = _
  rw [State.bar0, if_pos h, registerWrite]

end

/-- Settles O53: an event is counted in the stored word; a counter has no rule of its own, so a read returns that word, and a
write goes by the counter's access code. -/
theorem eventCounters : Obligations.EventCounters := by
  intro a d v s hi hc
  refine ⟨⟨reg_bump s _ 1, cntNow_bump s _ 1, fun r hr => ⟨reg_bump_other s _ 1 hr, cntNow_bump_other s _ 1 hr⟩⟩,
    view_of_onlyCounts s (onlyCounts_of_counter hi hc), fun hs => ⟨fun hv hn => ?_, fun hv => ?_⟩⟩
  · refine ⟨s.setReg (regAt a) 0, ?_, reg_setReg .., fun r hr => reg_setReg_other s _ hr.symm, rfl⟩
    rw [exec_registerWrite_word s a v hs, writeWord_counter s _ _ hi hc, if_pos hv, hn]
    rfl
  · rw [exec_registerWrite_word s a v hs, writeWord_counter s _ _ hi hc, if_neg hv]

end Sys2Proof.Machine
end

section
/-!
PROOFS. Predicate registers (R238): what a write of one leaves in the others, and the C-slot words that may name none.
-/
namespace Sys2Proof.Machine

/-! ### Bits of a field and of a word with a field replaced -/

theorem testBit_fld (v hi lo i : Nat) :
    (fld v hi lo).testBit i = (decide (i < hi + 1 - lo) && v.testBit (lo + i)) := by
  rw [fld, Nat.testBit_mod_two_pow, Nat.testBit_shiftRight]

/-- A field that is 0 has no 1 in its upper part. -/
theorem fld_eq_zero_of_le {v hi lo lo' : Nat} (hle : lo ≤ lo') (h : fld v hi lo = 0) : fld v hi lo' = 0 := by
  refine Nat.eq_of_testBit_eq fun i => ?_
  have hbit : (fld v hi lo).testBit (lo' - lo + i) = false := by rw [h, Nat.zero_testBit]
  rw [testBit_fld, show lo + (lo' - lo + i) = lo' + i by omega] at hbit
  rw [testBit_fld, Nat.zero_testBit]
  by_cases hi' : i < hi + 1 - lo'
  · simpa [show lo' - lo + i < hi + 1 - lo by omega, hi'] using hbit
  · simp [hi']

/-- A field replaced reads the bits of the value; the bits outside it stay. -/
theorem getLsbD_wput (w : Word) (hi lo v i : Nat) :
    (wput w hi lo v).getLsbD i = if lo ≤ i ∧ i ≤ hi then decide (i < 32) && v.testBit (i - lo) else w.getLsbD i := by
  simp only [wput, BitVec.getLsbD_or, BitVec.getLsbD_and, BitVec.getLsbD_not, BitVec.getLsbD_ofNat, Nat.testBit_shiftLeft,
    Nat.testBit_two_pow_sub_one, Nat.testBit_mod_two_pow]
  by_cases hw : i < 32
  · by_cases hin : lo ≤ i ∧ i ≤ hi
    · have hlt : i - lo < hi + 1 - lo := by omega
      simp [hw, hin, hlt]
    · by_cases hlo : lo ≤ i
      · have hout : ¬ i - lo < hi + 1 - lo := by omega
        simp [hw, hin, hout]
      · simp [hw, hlo]
  · simp [hw, BitVec.getLsbD_of_ge w i (by omega)]

@[simp] theorem decide_b2n_mod_two (b : Bool) : decide (b2n b % 2 = 1) = b := by
  cases b <;> rfl

/-! ### Predicate registers -/

@[simp] theorem pr_zero (x : Tile) : x.pr 0 = true := rfl
@[simp] theorem setPr_zero (x : Tile) (v : Bool) : x.setPr 0 v = x := rfl

theorem pr_of_ne_zero (x : Tile) {p : PReg} (hp : p ≠ 0) : x.pr p = x.preds.getLsbD p.val := by
  have hv : p.val ≠ 0 := Fin.val_ne_zero_iff.2 hp
  simp [Tile.pr, hv]

theorem getLsbD_preds_setPr (x : Tile) {p : PReg} (hp : p ≠ 0) (v : Bool) (q : PReg) :
    (x.setPr p v).preds.getLsbD q.val = if q = p then v else x.preds.getLsbD q.val := by
  have hv : p.val ≠ 0 := Fin.val_ne_zero_iff.2 hp
  have hq : q.val < 8 := q.isLt
  have hq' : q.val < 32 := by omega
  have hbit : p.val ≤ q.val ∧ q.val ≤ p.val ↔ q = p := by rw [Fin.ext_iff]; omega
  rw [Tile.setPr, if_neg hv]
  show (BitVec.ofNat 8 (wput (x.preds.setWidth 32) p.val p.val (b2n v)).toNat).getLsbD q.val = _
  rw [BitVec.getLsbD_ofNat, BitVec.testBit_toNat, getLsbD_wput, BitVec.getLsbD_setWidth]
  simp only [hbit, hq, hq', decide_true, Bool.true_and]
  split
  · next h => simp [h]
  · rfl

/-- A predicate register written reads the value, every other its own (R238). -/
theorem pr_setPr (x : Tile) {p : PReg} (hp : p ≠ 0) (v : Bool) (q : PReg) :
    (x.setPr p v).pr q = if q = p then v else x.pr q := by
  by_cases hq : q = 0
  · subst hq
    simp [Ne.symm hp]
  · rw [pr_of_ne_zero _ hq, pr_of_ne_zero _ hq, getLsbD_preds_setPr x hp]

/-! ### The C-slot words that may name no predicate -/

theorem okOp_false (i : Instr) : okOp false i = .reserved := rfl

/-- A field with a 1 in its upper part is not 0: how a predicate named shows in the bits that must be 0. -/
theorem z_eq_false_of_wfld_ne_zero {w : Word} {hi lo lo' : Nat} (hle : lo ≤ lo') (h : wfld w hi lo' ≠ 0) : z w hi lo = false :=
  beq_eq_false_iff_ne.2 fun h0 => h (fld_eq_zero_of_le hle h0)

theorem decodeSlot_C (t : TileId) {w : Word} (h : wfld w 31 26 ≠ 0) : decodeSlot t 0 w = decC (wordSite t w) w := by
  simp [decodeSlot, h]

theorem decC_tide (u : Site) {w : Word} (h : wfld w 31 26 = 0x08) :
    decC u w = okOp (z w 25 12) (.tide u.tile ⟨wfld w 11 0 % 4096, Nat.mod_lt _ (by decide)⟩) := by
  simp [decC, h]

theorem decC_endProg (u : Site) {w : Word} (h : wfld w 31 26 = 0x09) : decC u w = okOp (z w 25 0) (.endProg u.tile) := by
  simp [decC, h]

/-- A tide or end whose PNEG or PRED field is not 0 is a reserved encoding (R238). -/
theorem decodeSlot_predicated_reserved (t : TileId) {w : Word} (hop : wfld w 31 26 = 0x08 ∨ wfld w 31 26 = 0x09)
    (hpred : wfld w 25 22 ≠ 0) : decodeSlot t 0 w = .reserved := by
  rcases hop with htide | hend
  · rw [decodeSlot_C t (by simp [htide]), decC_tide _ htide, z_eq_false_of_wfld_ne_zero (by decide) hpred, okOp_false]
  · rw [decodeSlot_C t (by simp [hend]), decC_endProg _ hend, z_eq_false_of_wfld_ne_zero (by decide) hpred, okOp_false]

/-- Settles O5: p0 is never stored, a write of another register replaces one bit of the byte, and the predicate bits of a tide or
end lie in the field that must be 0. -/
theorem predicateRegisters : Obligations.PredicateRegisters :=
  ⟨fun x => ⟨pr_zero x, setPr_zero x⟩, fun x _ q v hp => pr_setPr x hp v q, fun t _ hop hpred =>
    decodeSlot_predicated_reserved t hop hpred⟩

end Sys2Proof.Machine
end
